-- ==== Sys2Proof/Word.lean ====
section
/-! DEFINITION. The word types of the Talos CA cipher engine: the widths of
00_scope.md rules R6 and R7, 10_state.md rules R22 to R32 and 30_encoding.md rules R80 and R84. -/

namespace Sys2Proof

/-- One byte of a block, of the input stream or of the output stream (R64, R65). -/
abbrev Byte := BitVec 8

/-- A 32-bit word: the key (R22), `ARG` (R80), the response `RESP` (R84), `STATUS` (R32) and `BLKCNT` (R31). -/
abbrev Word := BitVec 32

/-- A command word `CMD[39:0]` (R80). -/
abbrev CmdWord := BitVec 40

/-- A 16-bit row or column value (R123, R124). -/
abbrev Line := BitVec 16

/-- A 16×16 grid of bits (R9), held as its 256 bits in row-major order, cell (0,0) the most significant bit
and cell (15,15) the least. So a literal of this type shows the 64 hex digits of `pack(G)`, the form in which R9 and
95_test_vectors.md write a grid. Cells are read only through `Machine.cell`. -/
abbrev Grid := BitVec 256

/-- The 32 bytes of a frame: `IN_BUF`, `OUT_BUF` (R29, R30) and the byte form of a block (R90). -/
abbrev Frame := Vector Byte 32

/-- The grid of all 0 (R9). -/
abbrev Grid.ZERO : Grid := 0#256

/-- The grid of all 1 (R9). -/
abbrev Grid.ONES : Grid := BitVec.allOnes 256

end Sys2Proof
end

