-- ==== Sys2Proof/Config.lean ====
section
/-! DEFINITION. The implementation parameters of 00_scope.md rule R6. The numeric ones have the values this hardware
takes (decision D22); the ones the spec marks OPEN are constants with no body, so nothing can be proved of them beyond
what a statement assumes (log entry 1). -/

namespace Sys2Proof

/-- A template cell (R160). -/
inductive TemplateCell where
  /-- Seeded with constant 0. -/
  | zero
  /-- Seeded with constant 1. -/
  | one
  /-- Seeded with bit `i` of the key. -/
  | keyBit (i : Fin 32)
deriving DecidableEq, Repr, Inhabited

/-- An initialization template, stored flat in the order `16·r + c` (R61, R160). -/
abbrev Template := Vector TemplateCell 256

namespace Config

/-- `GENS_PER_BLOCK` (R6). -/
def gensPerBlock : Nat := 11

/-- `SURVIVE_MIN` (R6). -/
def surviveMin : Nat := 2

/-- `SURVIVE_MAX` (R6). -/
def surviveMax : Nat := 4

/-- `BIRTH_MIN` (R6). -/
def birthMin : Nat := 2

/-- `BIRTH_MAX` (R6). -/
def birthMax : Nat := 6

/-- `GRID_N` (R6); fixed by R7, so the types of Word.lean have it written in. -/
abbrev gridN : Nat := 16

/-- `GRID_BITS` (R6, R7). -/
abbrev gridBits : Nat := gridN * gridN

/-- `BLOCK_BYTES` (R6, R7). -/
abbrev blockBytes : Nat := 32

/-- `KEY_BITS` (R6, R7). -/
abbrev keyBits : Nat := 32

/-- `CMD_WIDTH` (R6). -/
abbrev cmdWidth : Nat := 40

/-- `RESP_WIDTH` (R6). -/
abbrev respWidth : Nat := 32

/-- `BLKCNT_WIDTH` (R6). -/
abbrev blkcntWidth : Nat := 32

/-- `TEMPLATE_T`, the transpose-stream template I_T: OPEN (R6, R162). -/
opaque templateT : Template

/-- `TEMPLATE_S`, the shift-stream template I_S: OPEN (R6, R162). -/
opaque templateS : Template

/-- `BLOCK_LATENCY`: OPEN, any value, one that depends on the data too (the message, transpose and shift grids of the
block); no rule relies on it (R6, R376), so nothing in this model reads it. -/
opaque blockLatency : Grid → Grid → Grid → Nat

end Config

end Sys2Proof
end

