-- ==== Sys2Proof/Syntax.lean ====
section
/-! DEFINITION. The host commands (30_encoding.md rules R81 to R83): one constructor per row of spec/opcode_table.json,
carrying exactly the bits of the command word that the row names as a field. -/

namespace Sys2Proof

/-- A decoded command. `ARG` bits a command ignores (R81) are no part of it. -/
inductive Instr where
  /-- `OP = 0x00` (R263). -/
  | nop
  /-- `OP = 0x01`, `K = ARG[31:0]` (R266). -/
  | loadKey (k : Word)
  /-- `OP = 0x02` (R267). -/
  | startEnc
  /-- `OP = 0x03` (R277). -/
  | startDec
  /-- `OP = 0x04`, `b = ARG[7:0]` (R268). -/
  | pushByte (b : Byte)
  /-- `OP = 0x05` (R269). -/
  | popByte
  /-- `OP = 0x06` (R270). -/
  | endStream
  /-- `OP = 0x07` (R271). -/
  | readStatus
  /-- `OP = 0x08` (R272). -/
  | readT
  /-- `OP = 0x09` (R273). -/
  | readS
  /-- `OP = 0x0A` (R274). -/
  | readBlkcnt
  /-- `OP = 0x0B` (R276). -/
  | clear
  /-- `OP = 0x0C..0x0F`, reserved (R264); `o` is `OP[1:0]`. -/
  | reserved0C0F (o : BitVec 2)
  /-- `OP = 0x10..0x1F`, reserved (R264); `o` is `OP[3:0]`. -/
  | reserved101F (o : BitVec 4)
  /-- `OP = 0x20..0x3F`, reserved (R264); `o` is `OP[4:0]`. -/
  | reserved203F (o : BitVec 5)
  /-- `OP = 0x40..0x7F`, reserved (R264); `o` is `OP[5:0]`. -/
  | reserved407F (o : BitVec 6)
  /-- `OP = 0x80..0xFF`, reserved (R264); `o` is `OP[6:0]`. -/
  | reserved80FF (o : BitVec 7)
deriving DecidableEq, Repr

/-- Whether the command is one of the reserved opcodes 0x0C..0xFF (R83). -/
def Instr.isReserved : Instr → Bool
  | .nop => false
  | .loadKey _ => false
  | .startEnc => false
  | .startDec => false
  | .pushByte _ => false
  | .popByte => false
  | .endStream => false
  | .readStatus => false
  | .readT => false
  | .readS => false
  | .readBlkcnt => false
  | .clear => false
  | .reserved0C0F _ => true
  | .reserved101F _ => true
  | .reserved203F _ => true
  | .reserved407F _ => true
  | .reserved80FF _ => true

end Sys2Proof
end

