-- ==== Sys2Proof/WellFormed.lean ====
section
/-! DEFINITION. Well-formedness. Every operand of `Instr` has exactly the width of its field (30_encoding.md rule R81), so
every term of `Instr` is a well-formed command and there is nothing to check of one (log entry 8). The checks that a value
can fail are the ones on the templates, `template_wf` of 42_key_schedule.md rule R161; the operand ranges of the assembler's
numbers (R95) are checked where it reads them, in Machine/Assembler.lean. -/

namespace Sys2Proof

/-- `I[r][c]`, the cell at flat index `16·r + c` (R61, R160). -/
def templateCell (t : Template) (r c : Fin 16) : TemplateCell :=
  t[16 * r.val + c.val]'(by omega)

/-- `I ≠ mirror_c(J)` (R161): some cell of `I` is not the cell `J[r][15−c]`. -/
def differsFromMirrorC (i j : Template) : Bool :=
  (List.finRange 16).any fun r => (List.finRange 16).any fun c =>
    decide (templateCell i r c ≠ templateCell j r (15 - c))

/-- `I ≠ mirror_r(J)` (R161): some cell of `I` is not the cell `J[15−r][c]`. -/
def differsFromMirrorR (i j : Template) : Bool :=
  (List.finRange 16).any fun r => (List.finRange 16).any fun c =>
    decide (templateCell i r c ≠ templateCell j (15 - r) c)

/-- R161(a): exactly 64 `Zero` cells and exactly 64 `One` cells. -/
def templateConstantsBalanced (t : Template) : Bool :=
  decide (t.toList.count .zero = 64) && decide (t.toList.count .one = 64)

/-- R161(b): each key-bit index occurs in exactly four cells. -/
def templateKeyBitsBalanced (t : Template) : Bool :=
  (List.finRange 32).all fun i => decide (t.toList.count (.keyBit i) = 4)

/-- R161(c): not bilaterally symmetric on either axis. -/
def templateAsymmetric (t : Template) : Bool :=
  differsFromMirrorC t t && differsFromMirrorR t t

/-- R161(d): the two templates are not related by an axis reflection. -/
def templatesUnrelated (tT tS : Template) : Bool :=
  differsFromMirrorC tT tS && differsFromMirrorR tT tS

/-- `template_wf(I_T, I_S)` (R161). -/
def templateWf (tT tS : Template) : Bool :=
  templateConstantsBalanced tT && templateConstantsBalanced tS
    && templateKeyBitsBalanced tT && templateKeyBitsBalanced tS
    && templateAsymmetric tT && templateAsymmetric tS
    && templatesUnrelated tT tS

/-- The one property a statement may assume of the hardware's templates (R162). -/
abbrev Config.TemplatesWf : Prop := templateWf Config.templateT Config.templateS = true

end Sys2Proof
end

