-- ==== Sys2Proof/Decode.lean ====
section
/-! DEFINITION. The command word: fields, decoder, encoder and the opcode table (30_encoding.md rules R80 to R83, R94;
spec/opcode_table.json). Decoding is total: every 40-bit word selects exactly one row (R83), so no word is refused. -/

namespace Sys2Proof

/-- `OP = CMD[39:32]` (R80). -/
def opField (cmd : CmdWord) : BitVec 8 := cmd.extractLsb' 32 8

/-- `ARG = CMD[31:0]` (R80). -/
def argField (cmd : CmdWord) : Word := cmd.extractLsb' 0 32

/-- `K = ARG[31:0]`, unchanged (R81). -/
def keyOperand (arg : Word) : Word := arg

/-- `b = ARG[7:0]`; `ARG[31:8]` is ignored (R81). -/
def byteOperand (arg : Word) : Byte := arg.extractLsb' 0 8

/-- The opcode map (R82): the twelve commands by their opcode, everything else by its reserved range (R83). -/
def decode (cmd : CmdWord) : Instr :=
  let op := opField cmd
  let arg := argField cmd
  if op = 0x00#8 then .nop
  else if op = 0x01#8 then .loadKey (keyOperand arg)
  else if op = 0x02#8 then .startEnc
  else if op = 0x03#8 then .startDec
  else if op = 0x04#8 then .pushByte (byteOperand arg)
  else if op = 0x05#8 then .popByte
  else if op = 0x06#8 then .endStream
  else if op = 0x07#8 then .readStatus
  else if op = 0x08#8 then .readT
  else if op = 0x09#8 then .readS
  else if op = 0x0A#8 then .readBlkcnt
  else if op = 0x0B#8 then .clear
  else if op &&& 0xFC#8 = 0x0C#8 then .reserved0C0F (op.extractLsb' 0 2)
  else if op &&& 0xF0#8 = 0x10#8 then .reserved101F (op.extractLsb' 0 4)
  else if op &&& 0xE0#8 = 0x20#8 then .reserved203F (op.extractLsb' 0 5)
  else if op &&& 0xC0#8 = 0x40#8 then .reserved407F (op.extractLsb' 0 6)
  else .reserved80FF (op.extractLsb' 0 7)

/-- `{OP, ARG}` (R80). -/
def cmdWord (op : BitVec 8) (arg : Word) : CmdWord := op ++ arg

/-- The command word of a command, ignored `ARG` bits 0 as the assembler writes them (R81, R95). -/
def encode : Instr → CmdWord
  | .nop => cmdWord 0x00#8 0#32
  | .loadKey k => cmdWord 0x01#8 k
  | .startEnc => cmdWord 0x02#8 0#32
  | .startDec => cmdWord 0x03#8 0#32
  | .pushByte b => cmdWord 0x04#8 (0#24 ++ b)
  | .popByte => cmdWord 0x05#8 0#32
  | .endStream => cmdWord 0x06#8 0#32
  | .readStatus => cmdWord 0x07#8 0#32
  | .readT => cmdWord 0x08#8 0#32
  | .readS => cmdWord 0x09#8 0#32
  | .readBlkcnt => cmdWord 0x0A#8 0#32
  | .clear => cmdWord 0x0B#8 0#32
  | .reserved0C0F o => cmdWord (0b000011#6 ++ o) 0#32
  | .reserved101F o => cmdWord (0b0001#4 ++ o) 0#32
  | .reserved203F o => cmdWord (0b001#3 ++ o) 0#32
  | .reserved407F o => cmdWord (0b01#2 ++ o) 0#32
  | .reserved80FF o => cmdWord (0b1#1 ++ o) 0#32

/-- One row of spec/opcode_table.json: a word belongs to the row when `CMD & mask = match`. -/
structure OpcodeRow where
  /-- the row's mask -/
  mask : CmdWord
  /-- the row's match -/
  pattern : CmdWord
deriving DecidableEq, Repr

/-- Whether a word belongs to a row. -/
def OpcodeRow.selects (row : OpcodeRow) (cmd : CmdWord) : Bool :=
  decide (cmd &&& row.mask = row.pattern)

/-- The row of a command, as spec/opcode_table.json has it. -/
def opcodeRow : Instr → OpcodeRow
  | .nop => ⟨0xFF00000000#40, 0x0000000000#40⟩
  | .loadKey _ => ⟨0xFF00000000#40, 0x0100000000#40⟩
  | .startEnc => ⟨0xFF00000000#40, 0x0200000000#40⟩
  | .startDec => ⟨0xFF00000000#40, 0x0300000000#40⟩
  | .pushByte _ => ⟨0xFF00000000#40, 0x0400000000#40⟩
  | .popByte => ⟨0xFF00000000#40, 0x0500000000#40⟩
  | .endStream => ⟨0xFF00000000#40, 0x0600000000#40⟩
  | .readStatus => ⟨0xFF00000000#40, 0x0700000000#40⟩
  | .readT => ⟨0xFF00000000#40, 0x0800000000#40⟩
  | .readS => ⟨0xFF00000000#40, 0x0900000000#40⟩
  | .readBlkcnt => ⟨0xFF00000000#40, 0x0A00000000#40⟩
  | .clear => ⟨0xFF00000000#40, 0x0B00000000#40⟩
  | .reserved0C0F _ => ⟨0xFC00000000#40, 0x0C00000000#40⟩
  | .reserved101F _ => ⟨0xF000000000#40, 0x1000000000#40⟩
  | .reserved203F _ => ⟨0xE000000000#40, 0x2000000000#40⟩
  | .reserved407F _ => ⟨0xC000000000#40, 0x4000000000#40⟩
  | .reserved80FF _ => ⟨0x8000000000#40, 0x8000000000#40⟩

/-- The seventeen rows of spec/opcode_table.json, in its order. -/
def opcodeTable : List OpcodeRow :=
  [opcodeRow .nop, opcodeRow (.loadKey 0), opcodeRow .startEnc, opcodeRow .startDec, opcodeRow (.pushByte 0),
    opcodeRow .popByte, opcodeRow .endStream, opcodeRow .readStatus, opcodeRow .readT, opcodeRow .readS]
  ++ [opcodeRow .readBlkcnt, opcodeRow .clear, opcodeRow (.reserved0C0F 0), opcodeRow (.reserved101F 0),
    opcodeRow (.reserved203F 0), opcodeRow (.reserved407F 0), opcodeRow (.reserved80FF 0)]

/-- What `decode` reads from a command word whose bits are `w`, numbered as spec/opcode_table.json numbers them: a
command is one 40-bit word (R80), so bit i of the table is `CMD[i]`. Bits above `nbits` are 0; a number with bits above
those 40 is no command word. -/
def decodeTableWord (nbits w : Nat) : Option Instr :=
  if nbits ≤ 40 ∧ w < 2 ^ nbits then some (decode (BitVec.ofNat 40 w)) else none

end Sys2Proof
end

