-- ==== Sys2Proof/Machine/State.lean ====
section
/-! DEFINITION. The architectural state (10_state.md rules R22 to R31), the host's side of the command port
(70_reset_and_hazards.md rule R377, 30_encoding.md rule R84), the reasons a step can stop, and the state after reset
(R360). The engine has no register file, no program counter (R20, R21) and no addressable memory (R60). -/

namespace Sys2Proof.Machine

/-- `PHASE` (R24). The code 3 never occurs, and this type has no value for it. -/
inductive Phase where
  /-- 0: no session open -/
  | idle
  /-- 1: a session is open and input bytes are accepted -/
  | stream
  /-- 2: an error is latched -/
  | error
deriving DecidableEq, Repr

/-- `MODE` (R25). -/
inductive Mode where
  /-- 0 -/
  | encrypt
  /-- 1 -/
  | decrypt
deriving DecidableEq, Repr

/-- The values of the 3-bit `ERR` (R26, R320). The engine writes codes 0, 1, 3 and 5 only (R36(d), U17). -/
inductive ErrCode where
  /-- 0: no error latched -/
  | noError
  /-- 1: `END_STREAM` with `IN_CNT ≠ 0` -/
  | inputLengthInvalid
  /-- 2: host-side, never raised by the engine -/
  | ioFailure
  /-- 3: `START_ENC` or `START_DEC` with `KEYV = 0` -/
  | keyMissing
  /-- 4: host-side, never raised by the engine -/
  | keyParseFailure
  /-- 5: a command not legal in the current phase, or a reserved opcode -/
  | commandIllegal
  /-- 6: reserved -/
  | reserved6
  /-- 7: reserved -/
  | reserved7
deriving DecidableEq, Repr

/-- What the host does next: issue a command word, or reset the engine between two commands (R360, R377). -/
inductive HostAction where
  /-- issue the command word `cmd` on the command port (R80) -/
  | command (cmd : CmdWord)
  /-- apply reset (R360) -/
  | reset
deriving DecidableEq, Repr

/-- The engine's state elements, and the two ends of the command port. -/
structure State where
  /-- `KEY` (R22): the user key, 32 bits -/
  key : Word
  /-- `KEYV` (R23): `KEY` holds a key loaded since reset -/
  keyv : Bool
  /-- `PHASE` (R24) -/
  phase : Phase
  /-- `MODE` (R25) -/
  mode : Mode
  /-- `ERR` (R26) -/
  err : ErrCode
  /-- `GT` (R27): the transpose-key stream's grid -/
  gt : Grid
  /-- `GS` (R28): the shift-key stream's grid -/
  gs : Grid
  /-- `IN_BUF` (R29): the input frame -/
  inBuf : Frame
  /-- `IN_CNT` (R29): bytes the input frame holds, 5 bits, 0..31 -/
  inCnt : Fin 32
  /-- `OUT_BUF` (R30): the output frame -/
  outBuf : Frame
  /-- `OUT_CNT` (R30): output bytes not yet read, 6 bits, 0..32 -/
  outCnt : Fin 33
  /-- `BLKCNT` (R31): blocks processed in the session, modulo 2^32 -/
  blkcnt : Word
  /-- the host's actions that the engine has not accepted yet, the next one first (R377) -/
  hostQueue : List HostAction
  /-- the response words returned so far, oldest first: the response channel of R260, the observation of R377 -/
  responses : List Word
deriving DecidableEq, Repr

/-- Why a step stops. -/
inductive Fault where
  /-- Raised by `step` alone, on a command issued in a state that breaks an invariant of R36; the spec gives such a
  state "no defined successor" (93_implementation_defined.md U9). No run from reset reaches one. Safe. -/
  | invariantViolated
deriving DecidableEq, Repr

/-- Why a step has no meaning. -/
inductive Refusal where
  /-- Raised by an arm of `exec` whose command has no meaning yet; there is none. Safe. -/
  | notModelled (mnemonic : String)
deriving DecidableEq, Repr

/-- The state right after reset (R360): every element at the value of rules R22 to R31. The host has issued nothing yet
and no response has been returned (log entry 2). -/
def State.reset : State where
  key := 0#32
  keyv := false
  phase := .idle
  mode := .encrypt
  err := .noError
  gt := Grid.ZERO
  gs := Grid.ZERO
  inBuf := Vector.replicate 32 0#8
  inCnt := 0
  outBuf := Vector.replicate 32 0#8
  outCnt := 0
  blkcnt := 0#32
  hostQueue := []
  responses := []

end Sys2Proof.Machine
end

