-- ==== Sys2Proof/Machine/Flags.lean ====
section
/-! DEFINITION. The codes of the status fields and the `STATUS` word, 10_state.md rules R24, R25, R26 and R32. The engine
has no condition codes (R35): these are all its flags. -/

namespace Sys2Proof.Machine

/-- The 2-bit code of `PHASE` (R24). -/
def phaseCode : Phase → BitVec 2
  | .idle => 0#2
  | .stream => 1#2
  | .error => 2#2

/-- The 1-bit code of `MODE` (R25). -/
def modeCode : Mode → BitVec 1
  | .encrypt => 0#1
  | .decrypt => 1#1

/-- The 3-bit code of `ERR` (R320). -/
def errCode : ErrCode → BitVec 3
  | .noError => 0#3
  | .inputLengthInvalid => 1#3
  | .ioFailure => 2#3
  | .keyMissing => 3#3
  | .keyParseFailure => 4#3
  | .commandIllegal => 5#3
  | .reserved6 => 6#3
  | .reserved7 => 7#3

/-- `STATUS` (R32): bits 31:19 reserved, 18:16 `ERR`, 15 reserved, 14:9 `OUT_CNT`, 8:4 `IN_CNT`, 3 `KEYV`, 2 `MODE`,
1:0 `PHASE`. -/
def statusWord (s : State) : Word :=
  0#13 ++ errCode s.err ++ 0#1 ++ BitVec.ofNat 6 s.outCnt.val ++ BitVec.ofNat 5 s.inCnt.val
    ++ BitVec.ofBool s.keyv ++ modeCode s.mode ++ phaseCode s.phase

end Sys2Proof.Machine
end

