-- ==== Sys2Proof/Machine/Operands.lean ====
section
/-! DEFINITION. The command classes of 45_framer_pipeline.md rule R260 and the response forms of 30_encoding.md rules R84
and R85. The operand forms of the command word (R81) are `keyOperand` and `byteOperand` in Decode.lean. -/

namespace Sys2Proof.Machine

/-- `HELD_SET` (R260): the commands held while `OUT_CNT ≠ 0` (R261). -/
def inHeldSet : Instr → Bool
  | .nop => false
  | .loadKey _ => true
  | .startEnc => true
  | .startDec => true
  | .pushByte _ => true
  | .popByte => false
  | .endStream => true
  | .readStatus => false
  | .readT => true
  | .readS => true
  | .readBlkcnt => false
  | .clear => false
  | .reserved0C0F _ => false
  | .reserved101F _ => false
  | .reserved203F _ => false
  | .reserved407F _ => false
  | .reserved80FF _ => false

/-- `ERROR_SET` (R260): the commands that act in phase `ERROR` (R325). -/
def inErrorSet : Instr → Bool
  | .nop => true
  | .loadKey _ => false
  | .startEnc => false
  | .startDec => false
  | .pushByte _ => false
  | .popByte => true
  | .endStream => false
  | .readStatus => true
  | .readT => false
  | .readS => false
  | .readBlkcnt => true
  | .clear => true
  | .reserved0C0F _ => false
  | .reserved101F _ => false
  | .reserved203F _ => false
  | .reserved407F _ => false
  | .reserved80FF _ => false

/-- The response of a `POP_BYTE` that returns the byte `b` (R85): bits 31:9 are 0, bit 8 is `valid`, bits 7:0 the byte. -/
def popResponse (b : Byte) : Word := 0#23 ++ 1#1 ++ b

end Sys2Proof.Machine
end

