-- ==== Sys2Proof/Machine/Ops.lean ====
section
/-! DEFINITION. The operations every command shares: the response (30_encoding.md rule R84), taking an error and coming
back from one (60_exceptions.md rules R323, R328), reset (70_reset_and_hazards.md rule R360), the hold and the ignore of
45_framer_pipeline.md rules R260 and R261, and the invariants of 10_state.md rule R36. The engine has no addressable
memory, so there are no memory operations (20_memory.md rule R60). -/

namespace Sys2Proof.Machine

/-- `respond(v)` (R10, R84): the command is accepted, so it leaves the head of the host's queue and its one response
word joins the response channel. -/
def respond (v : Word) (s : State) : State :=
  { s with hostQueue := s.hostQueue.tail, responses := s.responses ++ [v] }

/-- `raise Error(code)` (R323). The first error wins (R26), and every error leads to phase `ERROR` (R262); log entry 5
says how the one line of R323's pseudocode is read. -/
def raiseError (code : ErrCode) (s : State) : State :=
  respond 0#32 { s with err := if s.err = .noError then code else s.err, phase := .error }

/-- The return from an error, and the session cancel (R276, R328): everything but `KEY` and `KEYV`. -/
def clearSession (s : State) : State :=
  { s with
    phase := .idle, mode := .encrypt, err := .noError
    gt := Grid.ZERO, gs := Grid.ZERO
    inCnt := 0, inBuf := Vector.replicate 32 0#8
    outCnt := 0, outBuf := Vector.replicate 32 0#8
    blkcnt := 0#32 }

/-- `reset()` (R360). It is no command: it returns no response, and the host's later actions are not affected. -/
def applyReset (s : State) : State :=
  { clearSession s with key := 0#32, keyv := false }

/-- The hold test (R261). -/
def held (i : Instr) (s : State) : Bool := inHeldSet i && decide (s.outCnt ≠ 0)

/-- The ignore test (R260, R325). -/
def ignored (i : Instr) (s : State) : Bool := decide (s.phase = .error) && !inErrorSet i

/-- `command(CMD)` (R260) for the decoded command `i`, whose own rule is `rule`. Held: no state change and no response.
Ignored: accepted, response 0, nothing else. The hold is tested first (R325). -/
def command (i : Instr) (rule : State → State) (s : State) : Host.Outcome State Fault Refusal :=
  if held i s then .next s
  else if ignored i s then .next (respond 0#32 s)
  else .next (rule s)

/-- The host's next action (R377: the host issues in order). -/
def nextAction (s : State) : Option HostAction := s.hostQueue.head?

/-- The invariants (a) to (g) of R36, (a) and (b) being true by the types of the fields. -/
def invariantsHold (s : State) : Bool :=
  decide (phaseCode s.phase ≠ 3#2)
    && decide (s.inCnt.val ≤ 31) && decide (s.outCnt.val ≤ 32)
    && decide (s.phase = .error ↔ s.err ≠ .noError)
    && decide (s.err = .noError ∨ s.err = .inputLengthInvalid ∨ s.err = .keyMissing ∨ s.err = .commandIllegal)
    && decide (s.phase = .stream → s.keyv = true)
    && decide (s.inCnt ≠ 0 → s.phase = .stream ∨ s.phase = .error)
    && decide (s.phase = .idle → s.inCnt = 0)

end Sys2Proof.Machine
end

