-- ==== Sys2Proof/Machine/Control.lean ====
section
/-! DEFINITION. `NOP`, `CLEAR` and the reserved opcodes (45_framer_pipeline.md rules R263, R264, R276). -/

namespace Sys2Proof.Machine

/-- The rule of `NOP` (R263). -/
def nopRule (s : State) : State := respond 0#32 s

/-- The rule of `CLEAR` (R276). -/
def clearRule (s : State) : State := respond 0#32 (clearSession s)

/-- The rule of a reserved opcode (R264). Its `.error` case is out of reach (R325). -/
def reservedRule (s : State) : State :=
  match s.phase with
  | .idle => raiseError .commandIllegal s
  | .stream => raiseError .commandIllegal s
  | .error => respond 0#32 s

/-- `NOP` (R263). -/
def execNop (s : State) : Host.Outcome State Fault Refusal := command .nop nopRule s

/-- `CLEAR` (R276). -/
def execClear (s : State) : Host.Outcome State Fault Refusal := command .clear clearRule s

/-- `OP = 0x0C..0x0F` (R264). -/
def execReserved0C0F (o : BitVec 2) (s : State) : Host.Outcome State Fault Refusal :=
  command (.reserved0C0F o) reservedRule s

/-- `OP = 0x10..0x1F` (R264). -/
def execReserved101F (o : BitVec 4) (s : State) : Host.Outcome State Fault Refusal :=
  command (.reserved101F o) reservedRule s

/-- `OP = 0x20..0x3F` (R264). -/
def execReserved203F (o : BitVec 5) (s : State) : Host.Outcome State Fault Refusal :=
  command (.reserved203F o) reservedRule s

/-- `OP = 0x40..0x7F` (R264). -/
def execReserved407F (o : BitVec 6) (s : State) : Host.Outcome State Fault Refusal :=
  command (.reserved407F o) reservedRule s

/-- `OP = 0x80..0xFF` (R264). -/
def execReserved80FF (o : BitVec 7) (s : State) : Host.Outcome State Fault Refusal :=
  command (.reserved80FF o) reservedRule s

end Sys2Proof.Machine
end

