-- ==== Sys2Proof/Machine/Bits.lean ====
section
/-! DEFINITION. The bit-field helper every packing of the spec is written with: a value built from its bits, most
significant first (00_scope.md rule R8's `{a, b, …}`), and `popcount` (R8). -/

namespace Sys2Proof.Machine

/-- The number whose `n` bits, most significant first, are `f 0, …, f (n-1)`. -/
def msbNat (f : Nat → Bool) : Nat → Nat
  | 0 => 0
  | n + 1 => 2 * msbNat f n + (f n).toNat

/-- `{f 0, f 1, …, f (n-1)}` (R8): the `n`-bit value with `f 0` its most significant bit.
Irreducible, so that an elaborator never computes the bits of a value it only has to name; the kernel does compute them. -/
@[irreducible] def msbFirst (n : Nat) (f : Nat → Bool) : BitVec n :=
  BitVec.ofNat n (msbNat f n)

/-- `popcount(v)`, the number of 1 bits (R8). -/
def popcount {n : Nat} (v : BitVec n) : Nat :=
  (List.range n).countP fun i => v.getLsbD i

end Sys2Proof.Machine
end

