-- ==== Sys2Proof/Machine/CaEngine.lean ====
section
/-! DEFINITION. The CA state-machine engine, 41_ca_engine.md: the bit grid (rules R120 to R124), the Key Automaton Rule
and its generations (R125 to R127), and the torus symmetries and distance of its laws (R129, R130). Row and column
indices are `Fin 16`, whose `+` and `-` are the spec's arithmetic `mod 16`. -/

namespace Sys2Proof.Machine

/-- `G[r][c]` (R9, R120). -/
def cell (g : Grid) (r c : Fin 16) : Bool := g.getMsbD (16 * r.val + c.val)

/-- The grid with the given cells. -/
def ofCells (f : Fin 16 → Fin 16 → Bool) : Grid :=
  msbFirst 256 fun i => f (Fin.ofNat 16 (i / 16)) (Fin.ofNat 16 i)

/-- `set(G, r, c, v)` (R121). -/
def setCell (g : Grid) (r c : Fin 16) (v : Bool) : Grid :=
  ofCells fun r' c' => if r' = r ∧ c' = c then v else cell g r' c'

/-- `nbr(G, r, c)` (R122): the 1s among the eight toroidal neighbours. -/
def nbr (g : Grid) (r c : Fin 16) : Nat :=
  (cell g (r - 1) (c - 1)).toNat + (cell g (r - 1) c).toNat + (cell g (r - 1) (c + 1)).toNat
  + (cell g r (c - 1)).toNat + (cell g r (c + 1)).toNat
  + (cell g (r + 1) (c - 1)).toNat + (cell g (r + 1) c).toNat + (cell g (r + 1) (c + 1)).toNat

/-- `rowval(G, r)` (R123): column 0 is the most significant bit. -/
def rowval (g : Grid) (r : Fin 16) : Line := msbFirst 16 fun c => cell g r (Fin.ofNat 16 c)

/-- `colval(G, c)` (R124): row 0 is the most significant bit. -/
def colval (g : Grid) (c : Fin 16) : Line := msbFirst 16 fun r => cell g (Fin.ofNat 16 r) c

/-- `rule(b, n)` (R125). -/
def cellRule (b : Bool) (n : Nat) : Bool :=
  if b then decide (Config.surviveMin ≤ n ∧ n ≤ Config.surviveMax)
  else decide (Config.birthMin ≤ n ∧ n ≤ Config.birthMax)

/-- `step(G)` (R126): every successor cell is computed from `g` alone. -/
def gridStep (g : Grid) : Grid := ofCells fun r c => cellRule (cell g r c) (nbr g r c)

/-- `step^n(G)` (R127). -/
def gridSteps : Nat → Grid → Grid
  | 0, g => g
  | n + 1, g => gridStep (gridSteps n g)

/-- The cyclic translation by `(a, b)` (R129): the cell at `(r, c)` moves to `(r + a, c + b)`. -/
def torusShift (a b : Fin 16) (g : Grid) : Grid := ofCells fun r c => cell g (r - a) (c - b)

/-- The reflection `r ↦ 15 − r` (R129). -/
def reflectRows (g : Grid) : Grid := ofCells fun r c => cell g (15 - r) c

/-- The reflection `c ↦ 15 − c` (R129). -/
def reflectCols (g : Grid) : Grid := ofCells fun r c => cell g r (15 - c)

/-- The transposition `(r, c) ↦ (c, r)` (R129). -/
def transposeGrid (g : Grid) : Grid := ofCells fun r c => cell g c r

/-- The distance of two indices on the cycle of 16. -/
def cycleDist (a b : Fin 16) : Nat := min (a - b).val (b - a).val

/-- The toroidal Chebyshev distance of two cells (R130). -/
def torusDist (r c r' c' : Fin 16) : Nat := max (cycleDist r r') (cycleDist c c')

end Sys2Proof.Machine
end

