-- ==== Sys2Proof/Machine/Packing.lean ====
section
/-! DEFINITION. Block packing, 30_encoding.md rules R90 and R91: row-major, two bytes a row, the most significant bit of
each byte in the lowest-numbered column. -/

namespace Sys2Proof.Machine

/-- The byte `b_k` of `pack(G)` (R90): its bit `7 - i` is the cell of row `k div 2` at column `8·(k mod 2) + i`. -/
def packByte (g : Grid) (k : Fin 32) : Byte :=
  msbFirst 8 fun i => cell g (Fin.ofNat 16 (k.val / 2)) (Fin.ofNat 16 (8 * (k.val % 2) + i))

/-- `pack(G)` (R90). Irreducible for the reason `msbFirst` is. -/
@[irreducible] def pack (g : Grid) : Frame := Vector.ofFn (packByte g)

/-- `unpack(B)` (R91): `G[r][c] = b_{2r + (c div 8)}[7 − (c mod 8)]`. -/
def unpack (b : Frame) : Grid :=
  ofCells fun r c => (b[2 * r.val + c.val / 8]'(by omega)).getLsbD (7 - c.val % 8)

end Sys2Proof.Machine
end

