-- ==== Sys2Proof/Machine/Readout.lean ====
section
/-! DEFINITION. The commands that read: `READ_STATUS`, `READ_T`, `READ_S`, `READ_BLKCNT` (45_framer_pipeline.md rules
R271 to R274). -/

namespace Sys2Proof.Machine

/-- The rule of `READ_STATUS` (R271). -/
def readStatusRule (s : State) : State := respond (statusWord s) s

/-- The output frame filled whole with a packed grid (R272, R273). -/
def fillOutput (g : Grid) (s : State) : State :=
  respond 0#32 { s with outBuf := pack g, outCnt := 32 }

/-- The rule of `READ_T` (R272). -/
def readTRule (s : State) : State := fillOutput s.gt s

/-- The rule of `READ_S` (R273). -/
def readSRule (s : State) : State := fillOutput s.gs s

/-- The rule of `READ_BLKCNT` (R274). -/
def readBlkcntRule (s : State) : State := respond s.blkcnt s

/-- `READ_STATUS` (R271). -/
def execReadStatus (s : State) : Host.Outcome State Fault Refusal :=
  command .readStatus readStatusRule s

/-- `READ_T` (R272). -/
def execReadT (s : State) : Host.Outcome State Fault Refusal :=
  command .readT readTRule s

/-- `READ_S` (R273). -/
def execReadS (s : State) : Host.Outcome State Fault Refusal :=
  command .readS readSRule s

/-- `READ_BLKCNT` (R274). -/
def execReadBlkcnt (s : State) : Host.Outcome State Fault Refusal :=
  command .readBlkcnt readBlkcntRule s

end Sys2Proof.Machine
end

