-- ==== Sys2Proof/Machine/KeySchedule.lean ====
section
/-! DEFINITION. The key schedule generator, 42_key_schedule.md: seeding (R163), advancing (R165) and the subkey pair of a
block index (R167). -/

namespace Sys2Proof.Machine

/-- The bit a template cell is seeded with under key `k` (R163). -/
def seedCell (k : Word) : TemplateCell → Bool
  | .zero => false
  | .one => true
  | .keyBit i => k.getLsbD i.val

/-- `seed(I, K)` (R163). -/
def seed (t : Template) (k : Word) : Grid := ofCells fun r c => seedCell k (templateCell t r c)

/-- `advance(G) = step^GENS_PER_BLOCK(G)` (R165). -/
def advance (g : Grid) : Grid := gridSteps Config.gensPerBlock g

/-- `advance` applied `n` times (R170: one per block step). -/
def advances : Nat → Grid → Grid
  | 0, g => g
  | n + 1, g => advance (advances n g)

/-- `T_i` of the session key `k` (R167): a schedule that starts at the seed and advances once per block, before its use
(R166, R275). -/
def subkeyT (k : Word) (i : Nat) : Grid := advances (i + 1) (seed Config.templateT k)

/-- `S_i` of the session key `k` (R167). -/
def subkeyS (k : Word) (i : Nat) : Grid := advances (i + 1) (seed Config.templateS k)

end Sys2Proof.Machine
end

