-- ==== Sys2Proof/Machine/Session.lean ====
section
/-! DEFINITION. Key loading and the opening and closing of a session: `LOAD_KEY`, `START_ENC`, `START_DEC`, `END_STREAM`
(45_framer_pipeline.md rules R265 to R267, R270, R277). Each rule's `.error` case is out of reach: in phase `ERROR` these
commands are ignored before their rule applies (R325). -/

namespace Sys2Proof.Machine

/-- The rule of `LOAD_KEY K` (R266). -/
def loadKeyRule (k : Word) (s : State) : State :=
  match s.phase with
  | .idle => respond 0#32 { s with key := k, keyv := true }
  | .stream => raiseError .commandIllegal s
  | .error => respond 0#32 s

/-- `open_session(m)` (R265). -/
def openSession (m : Mode) (s : State) : State :=
  respond 0#32 { s with
    mode := m
    gt := seed Config.templateT s.key
    gs := seed Config.templateS s.key
    inCnt := 0
    blkcnt := 0#32
    phase := .stream }

/-- The rule `START_ENC` and `START_DEC` share (R267, R277): the phase test, then the key test, then the session. -/
def startRule (m : Mode) (s : State) : State :=
  match s.phase with
  | .idle => if s.keyv then openSession m s else raiseError .keyMissing s
  | .stream => raiseError .commandIllegal s
  | .error => respond 0#32 s

/-- The rule of `END_STREAM` (R270): the phase test, then the length test. -/
def endStreamRule (s : State) : State :=
  match s.phase with
  | .idle => raiseError .commandIllegal s
  | .stream => if s.inCnt ≠ 0 then raiseError .inputLengthInvalid s else respond 0#32 { s with phase := .idle }
  | .error => respond 0#32 s

/-- `LOAD_KEY K` (R266). -/
def execLoadKey (k : Word) (s : State) : Host.Outcome State Fault Refusal :=
  command (.loadKey k) (loadKeyRule k) s

/-- `START_ENC` (R267). -/
def execStartEnc (s : State) : Host.Outcome State Fault Refusal :=
  command .startEnc (startRule .encrypt) s

/-- `START_DEC` (R277). -/
def execStartDec (s : State) : Host.Outcome State Fault Refusal :=
  command .startDec (startRule .decrypt) s

/-- `END_STREAM` (R270). -/
def execEndStream (s : State) : Host.Outcome State Fault Refusal :=
  command .endStream endStreamRule s

end Sys2Proof.Machine
end

