-- ==== Sys2Proof/Machine/Scrambler.lean ====
section
/-! DEFINITION. The bit-permutation scrambler, 43_scrambler.md: index derivation (R200 to R202), the elementary swaps
(R203, R204), the forward pass V and the inverse pass V⁻¹ (R205, R206), and the permutations of R208. -/

namespace Sys2Proof.Machine

/-- `rowidx(T, j)` (R201): bits of row `j` of `t` at columns `a, a+4, a+8, a+12`, `a = 3j mod 4`, the first the most
significant. -/
def rowidx (t : Grid) (j : Fin 16) : Fin 16 :=
  Fin.ofNat 16 (msbFirst 4 fun i => cell t j (Fin.ofNat 16 ((3 * j.val) % 4 + 4 * i))).toNat

/-- `colidx(T, j)` (R202): bits of column `j` of `t` at rows `b, b+4, b+8, b+12`, `b = (3j + 3) mod 4`, the first the most
significant. -/
def colidx (t : Grid) (j : Fin 16) : Fin 16 :=
  Fin.ofNat 16 (msbFirst 4 fun i => cell t (Fin.ofNat 16 ((3 * j.val + 3) % 4 + 4 * i)) j).toNat

/-- `swap_rows(G, a, b)` (R203). -/
def swapRows (g : Grid) (a b : Fin 16) : Grid :=
  ofCells fun r c => if r = a then cell g b c else if r = b then cell g a c else cell g r c

/-- `swap_cols(G, a, b)` (R204). -/
def swapCols (g : Grid) (a b : Fin 16) : Grid :=
  ofCells fun r c => if c = a then cell g r b else if c = b then cell g r a else cell g r c

/-- The row swaps `(j, idx j)` for `j` along `js`, each on the grid as the ones before it left it (R205). -/
def rowSweep (idx : Fin 16 → Fin 16) : List (Fin 16) → Grid → Grid
  | [], g => g
  | j :: js, g => rowSweep idx js (swapRows g j (idx j))

/-- The column swaps `(j, idx j)` for `j` along `js` (R205). -/
def colSweep (idx : Fin 16 → Fin 16) : List (Fin 16) → Grid → Grid
  | [], g => g
  | j :: js, g => colSweep idx js (swapCols g j (idx j))

/-- `j = 0 to 15`. -/
def ascending : List (Fin 16) := [0, 1, 2, 3, 4, 5, 6, 7, 8, 9, 10, 11, 12, 13, 14, 15]

/-- `j = 15 downto 0`. -/
def descending : List (Fin 16) := [15, 14, 13, 12, 11, 10, 9, 8, 7, 6, 5, 4, 3, 2, 1, 0]

/-- `V(P, T)` (R205). Both index vectors are functions of the original `t`, which no swap touches (R200). -/
def scramble (p t : Grid) : Grid :=
  colSweep (colidx t) ascending (rowSweep (rowidx t) ascending p)

/-- `Vinv(E, T)` (R206): both sweeps descending, the column sweep first. -/
def unscramble (e t : Grid) : Grid :=
  rowSweep (rowidx t) descending (colSweep (colidx t) descending e)

/-- A labelling of the positions 0..15 after the swaps `(j, idx j)` for `j` along `js` (R208). -/
def labelSweep (idx : Fin 16 → Fin 16) : List (Fin 16) → (Fin 16 → Fin 16) → (Fin 16 → Fin 16)
  | [], lab => lab
  | j :: js, lab =>
    labelSweep idx js fun k => if k = j then lab (idx j) else if k = idx j then lab j else lab k

/-- `σ_T` (R208): the row sweep applied to the identity labelling. -/
def sigma (t : Grid) : Fin 16 → Fin 16 := labelSweep (rowidx t) ascending id

/-- `τ_T` (R208): the column sweep applied to the identity labelling. -/
def tau (t : Grid) : Fin 16 → Fin 16 := labelSweep (colidx t) ascending id

/-- Whether `rowidx(T, r)` reads the cell `(r, c)` of `T` (R201, R209). -/
def rowidxReads (r c : Fin 16) : Bool := decide (c.val % 4 = (3 * r.val) % 4)

/-- Whether `colidx(T, c)` reads the cell `(r, c)` of `T` (R202, R209). -/
def colidxReads (r c : Fin 16) : Bool := decide (r.val % 4 = (3 * c.val + 3) % 4)

end Sys2Proof.Machine
end

