-- ==== Sys2Proof/Machine/BlockCipher.lean ====
section
/-! DEFINITION. The block cipher datapath, 44_block_cipher.md (R240 to R242, R244), and a session's blocks in the closed
form of 45_framer_pipeline.md rule R279. -/

namespace Sys2Proof.Machine

/-- `gxor(A, B)` (R240): each of the 256 cells independently. -/
def gxor (a b : Grid) : Grid := a ^^^ b

/-- `enc_block(P, T, S)` (R241). -/
def encBlock (p t s : Grid) : Grid := scramble (gxor p s) t

/-- `dec_block(E, T, S)` (R242). -/
def decBlock (e t s : Grid) : Grid := gxor (unscramble e t) s

/-- The output frame of a frame under a subkey pair, encrypting (R244). -/
def encFrame (b : Frame) (t s : Grid) : Frame := pack (encBlock (unpack b) t s)

/-- The output frame of a frame under a subkey pair, decrypting (R244). -/
def decFrame (b : Frame) (t s : Grid) : Frame := pack (decBlock (unpack b) t s)

/-- The output frames of an encryption session under key `k` whose input frames, from block index `i` on, are listed
(R279). -/
def encFrames (k : Word) : Nat → List Frame → List Frame
  | _, [] => []
  | i, b :: bs => encFrame b (subkeyT k i) (subkeyS k i) :: encFrames k (i + 1) bs

/-- The output frames of a decryption session under key `k`, from block index `i` on (R279). -/
def decFrames (k : Word) : Nat → List Frame → List Frame
  | _, [] => []
  | i, b :: bs => decFrame b (subkeyT k i) (subkeyS k i) :: decFrames k (i + 1) bs

end Sys2Proof.Machine
end

