-- ==== Sys2Proof/Machine/Stream.lean ====
section
/-! DEFINITION. The byte stream: `PUSH_BYTE`, the block step and `POP_BYTE` (45_framer_pipeline.md rules R268, R269,
R275). -/

namespace Sys2Proof.Machine

/-- The output frame of the block step, from the advanced grids (R275, R244). -/
def blockOutput (m : Mode) (b : Frame) (t s : Grid) : Frame :=
  match m with
  | .encrypt => encFrame b t s
  | .decrypt => decFrame b t s

/-- `block_step()` (R275): both grids advance before the transform reads them. -/
def blockStep (s : State) : State :=
  let t := advance s.gt
  let sh := advance s.gs
  { s with
    gt := t
    gs := sh
    outBuf := blockOutput s.mode s.inBuf t sh
    outCnt := 32
    inCnt := 0
    blkcnt := s.blkcnt + 1#32 }

/-- `IN_BUF[IN_CNT] <- b` (R268). -/
def storeInput (b : Byte) (s : State) : State :=
  { s with inBuf := s.inBuf.set s.inCnt.val b }

/-- The rule of `PUSH_BYTE b` (R268). Its `.error` case is out of reach (R325). -/
def pushByteRule (b : Byte) (s : State) : State :=
  match s.phase with
  | .idle => raiseError .commandIllegal s
  | .stream =>
    if s.inCnt = 31 then respond 0#32 (blockStep (storeInput b s))
    else respond 0#32 { storeInput b s with inCnt := s.inCnt + 1 }
  | .error => respond 0#32 s

/-- `OUT_BUF[32 − OUT_CNT]`, the byte the next pop returns when one is pending (R30, R269). -/
def nextOutput (s : State) : Byte := s.outBuf[(32 - s.outCnt.val) % 32]'(by omega)

/-- The rule of `POP_BYTE` (R269). -/
def popByteRule (s : State) : State :=
  if s.outCnt = 0 then respond 0#32 s
  else respond (popResponse (nextOutput s)) { s with outCnt := s.outCnt - 1 }

/-- `PUSH_BYTE b` (R268). -/
def execPushByte (b : Byte) (s : State) : Host.Outcome State Fault Refusal :=
  command (.pushByte b) (pushByteRule b) s

/-- `POP_BYTE` (R269). -/
def execPopByte (s : State) : Host.Outcome State Fault Refusal :=
  command .popByte popByteRule s

end Sys2Proof.Machine
end

