-- ==== Sys2Proof/Machine/Dispatch.lean ====
section
/-! DEFINITION. Dispatch (30_encoding.md rule R94): one arm per command, one meaning per arm. -/

namespace Sys2Proof.Machine

def exec (i : Instr) (s : State) : Host.Outcome State Fault Refusal :=
  match i with
  | .nop => Sys2Proof.Machine.execNop s
  | .loadKey k => Sys2Proof.Machine.execLoadKey k s
  | .startEnc => Sys2Proof.Machine.execStartEnc s
  | .startDec => Sys2Proof.Machine.execStartDec s
  | .pushByte b => Sys2Proof.Machine.execPushByte b s
  | .popByte => Sys2Proof.Machine.execPopByte s
  | .endStream => Sys2Proof.Machine.execEndStream s
  | .readStatus => Sys2Proof.Machine.execReadStatus s
  | .readT => Sys2Proof.Machine.execReadT s
  | .readS => Sys2Proof.Machine.execReadS s
  | .readBlkcnt => Sys2Proof.Machine.execReadBlkcnt s
  | .clear => Sys2Proof.Machine.execClear s
  | .reserved0C0F o => Sys2Proof.Machine.execReserved0C0F o s
  | .reserved101F o => Sys2Proof.Machine.execReserved101F o s
  | .reserved203F o => Sys2Proof.Machine.execReserved203F o s
  | .reserved407F o => Sys2Proof.Machine.execReserved407F o s
  | .reserved80FF o => Sys2Proof.Machine.execReserved80FF o s

end Sys2Proof.Machine
end

