-- ==== Sys2Proof/Machine/Step.lean ====
section
/-! DEFINITION. One step of the machine: the engine has no step of its own (00_scope.md rule R3), so a step is the
host's next action applied to it (R260, R360, R377). -/

namespace Sys2Proof.Machine

/-- One host action, the next in the host's order (R377; log entry 6). With nothing issued the state is retained (R3,
R336; log entry 9). A reset takes effect between two commands (R360). A command word is decoded and applied (R94, R260): accepted, it leaves the queue; held, the state is unchanged,
so the host step is stuck (R261). A command issued in a state that breaks R36 faults (U9; log entry 4). -/
def step (s : State) : Host.Outcome State Fault Refusal :=
  match nextAction s with
  | none => .next s
  | some .reset => .next { applyReset s with hostQueue := s.hostQueue.tail }
  | some (.command cmd) => if invariantsHold s then exec (decode cmd) s else .fault .invariantViolated

/-- The host issues the command word whose bits are `w` (numbered as spec/opcode_table.json numbers them, those above
`nbits` being 0) before anything else it has queued: the command the next step applies (log entry 3). -/
def State.withFetchWord (s : State) (nbits w : Nat) : State :=
  { s with hostQueue := .command (BitVec.ofNat 40 (w % 2 ^ nbits)) :: s.hostQueue }

end Sys2Proof.Machine
end

