-- ==== Sys2Proof/Machine/Assembler.lean ====
section
/-! DEFINITION. The assembler syntax of 30_encoding.md rule R95 and the pseudo-instructions of rule R96. It is the host's
notation for programs, not a part of the engine: it yields commands, and nothing of the machine reads it. A line of text
is a list of characters. -/

namespace Sys2Proof.Machine

/-- The mnemonics of rule R82. There is none for a reserved opcode (R95). -/
inductive Mnemonic where
  | nop | loadKey | startEnc | startDec | pushByte | popByte
  | endStream | readStatus | readT | readS | readBlkcnt | clear
deriving DecidableEq, Repr

/-- `MNEMONIC` or `MNEMONIC operand` (R95). -/
structure AsmCommand where
  /-- the mnemonic -/
  mnemonic : Mnemonic
  /-- the operand, if the line has one -/
  operand : Option Nat
deriving DecidableEq, Repr

/-- A mnemonic that takes no operand (R95). -/
def assemblePlain (i : Instr) : Option Nat → Option Instr
  | none => some i
  | some _ => none

/-- The operand of `LOAD_KEY` is a number 0..2^32−1 (R95). -/
def assembleLoadKey : Option Nat → Option Instr
  | none => none
  | some n => if n < 2 ^ 32 then some (.loadKey (BitVec.ofNat 32 n)) else none

/-- The operand of `PUSH_BYTE` is a number 0..255 (R95). -/
def assemblePushByte : Option Nat → Option Instr
  | none => none
  | some n => if n < 256 then some (.pushByte (BitVec.ofNat 8 n)) else none

/-- One command of R95; `none` is an assembly error (an operand out of range, missing, or not taken). -/
def assemble (a : AsmCommand) : Option Instr :=
  match a.mnemonic with
  | .nop => assemblePlain .nop a.operand
  | .loadKey => assembleLoadKey a.operand
  | .startEnc => assemblePlain .startEnc a.operand
  | .startDec => assemblePlain .startDec a.operand
  | .pushByte => assemblePushByte a.operand
  | .popByte => assemblePlain .popByte a.operand
  | .endStream => assemblePlain .endStream a.operand
  | .readStatus => assemblePlain .readStatus a.operand
  | .readT => assemblePlain .readT a.operand
  | .readS => assemblePlain .readS a.operand
  | .readBlkcnt => assemblePlain .readBlkcnt a.operand
  | .clear => assemblePlain .clear a.operand

/-- A list of results, an error if one of them is. -/
def allSome {α : Type} : List (Option α) → Option (List α)
  | [] => some []
  | none :: _ => none
  | some x :: rest => (allSome rest).map (x :: ·)

/-- The pseudo-instructions of R96. -/
inductive Pseudo where
  /-- `PUSH_BYTES x_0 … x_{n−1}` -/
  | pushBytes (xs : List Nat)
  /-- `PUSH_BLOCK x_0 … x_31` -/
  | pushBlock (xs : List Nat)
  /-- `POP_N n` -/
  | popN (n : Nat)
  /-- `POP_BLOCK` -/
  | popBlock
  /-- `ENCRYPT_SESSION K; x_0 … x_{32m−1}` -/
  | encryptSession (k : Nat) (xs : List Nat)
  /-- `DECRYPT_SESSION K; x_0 … x_{32m−1}` -/
  | decryptSession (k : Nat) (xs : List Nat)
deriving DecidableEq, Repr

/-- `PUSH_BYTE x_0`, `PUSH_BYTE x_1`, … in that order (R96). -/
def expandPushBytes (xs : List Nat) : Option (List Instr) :=
  allSome (xs.map fun x => assemblePushByte (some x))

/-- `PUSH_BYTES` with exactly 32 operands (R96). -/
def expandPushBlock (xs : List Nat) : Option (List Instr) :=
  if xs.length = 32 then expandPushBytes xs else none

/-- `m` blocks, each a `PUSH_BLOCK` of its 32 bytes followed by `POP_BLOCK` (R96); any bytes left over, or missing, are
an error. -/
def expandBlocks : Nat → List Nat → Option (List Instr)
  | 0, [] => some []
  | 0, _ :: _ => none
  | m + 1, xs =>
    match expandPushBlock (xs.take 32), expandBlocks m (xs.drop 32) with
    | some block, some rest => some (block ++ List.replicate 32 .popByte ++ rest)
    | none, _ => none
    | some _, none => none

/-- `LOAD_KEY K`, the command that opens the session, the blocks, `END_STREAM` (R96). -/
def expandSession (start : Instr) (k : Nat) (xs : List Nat) : Option (List Instr) :=
  match assembleLoadKey (some k), expandBlocks (xs.length / 32) xs with
  | some load, some blocks => some (load :: start :: (blocks ++ [.endStream]))
  | none, _ => none
  | some _, none => none

/-- The expansion of a pseudo-instruction (R96). -/
def expand : Pseudo → Option (List Instr)
  | .pushBytes xs => expandPushBytes xs
  | .pushBlock xs => expandPushBlock xs
  | .popN n => some (List.replicate n .popByte)
  | .popBlock => some (List.replicate 32 .popByte)
  | .encryptSession k xs => expandSession .startEnc k xs
  | .decryptSession k xs => expandSession .startDec k xs

/-- A decimal digit's value. -/
def decimalDigit (c : Char) : Option Nat :=
  if '0' ≤ c ∧ c ≤ '9' then some (c.toNat - '0'.toNat) else none

/-- A hexadecimal digit's value, in either case. -/
def hexDigit (c : Char) : Option Nat :=
  if 'a' ≤ c ∧ c ≤ 'f' then some (c.toNat - 'a'.toNat + 10)
  else if 'A' ≤ c ∧ c ≤ 'F' then some (c.toNat - 'A'.toNat + 10)
  else decimalDigit c

/-- The number whose digits in base `base` follow the value `acc`. -/
def digits (base : Nat) (digit : Char → Option Nat) : Nat → List Char → Option Nat
  | acc, [] => some acc
  | acc, c :: cs =>
    match digit c with
    | some d => digits base digit (acc * base + d) cs
    | none => none

/-- A number in hex (`0x` prefix) or decimal (R95). -/
def parseNumber : List Char → Option Nat
  | [] => none
  | ['0', 'x'] => none
  | '0' :: 'x' :: cs => digits 16 hexDigit 0 cs
  | c :: cs => digits 10 decimalDigit 0 (c :: cs)

/-- The words of a line, split at spaces and tabs; `word` is the word being read, last character first. -/
def splitWords : List Char → List Char → List (List Char)
  | [], [] => []
  | word, [] => [word.reverse]
  | word, c :: cs =>
    if c = ' ' ∨ c = '\t' then
      match word with
      | [] => splitWords [] cs
      | w :: ws => (w :: ws).reverse :: splitWords [] cs
    else splitWords (c :: word) cs

/-- A mnemonic of rule R82, in upper case (R95). -/
def parseMnemonic (w : List Char) : Option Mnemonic :=
  if w = ['N', 'O', 'P'] then some .nop
  else if w = ['L', 'O', 'A', 'D', '_', 'K', 'E', 'Y'] then some .loadKey
  else if w = ['S', 'T', 'A', 'R', 'T', '_', 'E', 'N', 'C'] then some .startEnc
  else if w = ['S', 'T', 'A', 'R', 'T', '_', 'D', 'E', 'C'] then some .startDec
  else if w = ['P', 'U', 'S', 'H', '_', 'B', 'Y', 'T', 'E'] then some .pushByte
  else if w = ['P', 'O', 'P', '_', 'B', 'Y', 'T', 'E'] then some .popByte
  else if w = ['E', 'N', 'D', '_', 'S', 'T', 'R', 'E', 'A', 'M'] then some .endStream
  else if w = ['R', 'E', 'A', 'D', '_', 'S', 'T', 'A', 'T', 'U', 'S'] then some .readStatus
  else if w = ['R', 'E', 'A', 'D', '_', 'T'] then some .readT
  else if w = ['R', 'E', 'A', 'D', '_', 'S'] then some .readS
  else if w = ['R', 'E', 'A', 'D', '_', 'B', 'L', 'K', 'C', 'N', 'T'] then some .readBlkcnt
  else if w = ['C', 'L', 'E', 'A', 'R'] then some .clear
  else none

/-- The pseudo-instructions a line of words can name (R96). The two session forms are written with a `;`, which starts a
comment in a line (R95), so no line names them (log entry 7). -/
def parsePseudo (w : List Char) (args : List Nat) : Option Pseudo :=
  if w = ['P', 'U', 'S', 'H', '_', 'B', 'Y', 'T', 'E', 'S'] then some (.pushBytes args)
  else if w = ['P', 'U', 'S', 'H', '_', 'B', 'L', 'O', 'C', 'K'] then some (.pushBlock args)
  else if w = ['P', 'O', 'P', '_', 'N'] then
    match args with
    | [n] => some (.popN n)
    | [] => none
    | _ :: _ :: _ => none
  else if w = ['P', 'O', 'P', '_', 'B', 'L', 'O', 'C', 'K'] then
    match args with
    | [] => some .popBlock
    | _ :: _ => none
  else none

/-- The commands of a line's words: a command of R95 with its at most one operand, or a pseudo-instruction of R96. -/
def assembleWords : List (List Char) → Option (List Instr)
  | [] => some []
  | w :: rest =>
    match allSome (rest.map parseNumber) with
    | none => none
    | some args =>
      match parseMnemonic w with
      | some m =>
        match args with
        | [] => (assemble ⟨m, none⟩).map fun i => [i]
        | [n] => (assemble ⟨m, some n⟩).map fun i => [i]
        | _ :: _ :: _ => none
      | none => (parsePseudo w args).bind expand

/-- One line (R95): what stands before a `;`, as words. An empty line holds no command. -/
def assembleLine (line : List Char) : Option (List Instr) :=
  assembleWords (splitWords [] (line.takeWhile fun c => c ≠ ';'))

/-- A program (R95): its lines' command words, in order. -/
def assembleProgram (lines : List (List Char)) : Option (List CmdWord) :=
  (allSome (lines.map assembleLine)).map fun is => is.flatten.map encode

end Sys2Proof.Machine
end

