-- ==== Sys2Proof/Safety.lean ====
section
/-! DEFINITION. What counts as a run and as a safe state: the reachable states of 10_state.md rule R36, the ends of a run
of 70_reset_and_hazards.md rule R377, and the schedule invariant of 45_framer_pipeline.md rule R278. -/

namespace Sys2Proof.Machine

/-- The state right after reset with the host's whole program queued (R377). -/
def startWith (program : List HostAction) : State :=
  { State.reset with hostQueue := program }

/-- The states a run from reset passes through, whatever the host issues (R36, R377). -/
inductive Reachable : State → Prop where
  /-- the run's first state -/
  | start (program : List HostAction) : Reachable (startWith program)
  /-- one more step -/
  | next {s t : State} : Reachable s → step s = .next t → Reachable t

/-- The run ended with every action accepted (R377). -/
def finished (s : State) : Bool := s.hostQueue.isEmpty

/-- The run is stuck: the next command is held, and the host issues in order (R261, R377). -/
def stuck (s : State) : Bool :=
  match nextAction s with
  | none => false
  | some .reset => false
  | some (.command cmd) => held (decode cmd) s

/-- A state is safe when no command issued in it faults. -/
def Safe (s : State) : Prop := ∀ (i : Instr) (r : Fault), step { s with hostQueue := [.command (encode i)] } ≠ .fault r

/-- R278, for some key `k` and some number `n` of blocks: the grids stand at generation `11·n` of the key's seeds and
`BLKCNT` counts the blocks. -/
def onSchedule (s : State) (k : Word) (n : Nat) : Prop :=
  s.gt = gridSteps (11 * n) (seed Config.templateT k)
    ∧ s.gs = gridSteps (11 * n) (seed Config.templateS k)
    ∧ s.blkcnt = BitVec.ofNat 32 n

/-- The schedule invariant (R278): in an open session the grids follow the schedule of the loaded key. -/
def ScheduleFollowsKey (s : State) : Prop := s.phase = .stream → ∃ n, onSchedule s s.key n

/-- R278 in every phase: the grids and the counter are those of some key's schedule, or cleared (R276, R360). -/
def GridsOnASchedule (s : State) : Prop :=
  (∃ k n, onSchedule s k n) ∨ (s.gt = Grid.ZERO ∧ s.gs = Grid.ZERO ∧ s.blkcnt = 0#32)

/-- The commands of one block of a session: its 32 bytes pushed in order, its 32 output bytes popped (R96, R279). -/
def blockCommands (b : Frame) : List Instr :=
  b.toList.map .pushByte ++ List.replicate 32 .popByte

/-- The commands of a session over the frames `bs` (R96, R279), opened by `start`. -/
def sessionCommands (start : Instr) (k : Word) (bs : List Frame) : List Instr :=
  .loadKey k :: start :: (bs.flatMap blockCommands ++ [.endStream])

/-- The responses of one block whose output frame is `out`: 0 to every push, then each byte with `valid` set (R84, R85). -/
def blockResponses (out : Frame) : List Word :=
  List.replicate 32 0#32 ++ out.toList.map fun b => 0x100#32 ||| b.setWidth 32

/-- The responses of a session whose output frames are `outs`. -/
def sessionResponses (outs : List Frame) : List Word :=
  [0#32, 0#32] ++ outs.flatMap blockResponses ++ [0#32]

/-- The host issues these commands, in order. -/
def issue (is : List Instr) : List HostAction := is.map fun i => .command (encode i)

end Sys2Proof.Machine
end

