-- ==== Sys2Proof/Certificates/Slice0/Obligations.lean ====
section
/-! DEFINITION. The statements for the provers. Each is about every state, command or grid it quantifies over; the result
statements write the next state out as a record, so the equation is also the command's frame. -/

namespace Sys2Proof.Claims

open Sys2Proof.Machine

/-- The state with the response `v` returned (R84) and the command taken from the host's queue, which is the model's own
way of saying that it was accepted (log entry 2). -/
def answered (v : Word) (s : State) : State :=
  { s with hostQueue := s.hostQueue.tail, responses := s.responses ++ [v] }

/-- The state an error of code `code` leaves when none was latched (R323): only `ERR` and `PHASE` change. -/
def errored (code : ErrCode) (s : State) : State :=
  { s with err := code, phase := .error, hostQueue := s.hostQueue.tail, responses := s.responses ++ [0#32] }

/-- The command is in R260's `HELD_SET`. -/
def HeldSet (i : Instr) : Prop :=
  (∃ k, i = .loadKey k) ∨ i = .startEnc ∨ i = .startDec ∨ (∃ b, i = .pushByte b) ∨ i = .endStream ∨ i = .readT ∨ i = .readS

/-- The command is in R260's `ERROR_SET`. -/
def ErrorSet (i : Instr) : Prop :=
  i = .nop ∨ i = .popByte ∨ i = .readStatus ∨ i = .readBlkcnt ∨ i = .clear

/-- The ten mnemonics of R82 that take no operand: the text of each (R95), the mnemonic, and its command. -/
def plainCommands : List (List Char × Mnemonic × Instr) :=
  [(['N', 'O', 'P'], .nop, .nop),
   (['S', 'T', 'A', 'R', 'T', '_', 'E', 'N', 'C'], .startEnc, .startEnc),
   (['S', 'T', 'A', 'R', 'T', '_', 'D', 'E', 'C'], .startDec, .startDec),
   (['P', 'O', 'P', '_', 'B', 'Y', 'T', 'E'], .popByte, .popByte),
   (['E', 'N', 'D', '_', 'S', 'T', 'R', 'E', 'A', 'M'], .endStream, .endStream),
   (['R', 'E', 'A', 'D', '_', 'S', 'T', 'A', 'T', 'U', 'S'], .readStatus, .readStatus),
   (['R', 'E', 'A', 'D', '_', 'T'], .readT, .readT),
   (['R', 'E', 'A', 'D', '_', 'S'], .readS, .readS),
   (['R', 'E', 'A', 'D', '_', 'B', 'L', 'K', 'C', 'N', 'T'], .readBlkcnt, .readBlkcnt),
   (['C', 'L', 'E', 'A', 'R'], .clear, .clear)]

/-- Two states that agree but for bytes of `IN_BUF` at index `IN_CNT` and above (R29). -/
def SameButStaleInput (s t : State) : Prop :=
  { s with inBuf := t.inBuf } = t ∧ ∀ (k : Nat) (_ : k < 32), k < s.inCnt.val → s.inBuf[k] = t.inBuf[k]

end Sys2Proof.Claims

open Sys2Proof Sys2Proof.Machine Sys2Proof.Claims

/-! ## Encoding -/

/-- R82, R83: decoding the word of a command gives the command back, every operand at every value. -/
def Obligations.DecodeAfterEncode : Prop :=
  ∀ i : Instr, decode (encode i) = i ∧ decodeTableWord 40 (encode i).toNat = some i

/-- R81: what each command takes of `ARG`; the rest of it changes nothing, and is 0 in the word the command is written
as, so encoding what a word decodes to gives the word with its ignored bits zeroed. -/
def Obligations.OperandsAssembled : Prop :=
  ∀ w : CmdWord,
    (opField w = 0x01#8 → decode w = .loadKey (argField w)) ∧
    (opField w = 0x04#8 → decode w = .pushByte ((argField w).extractLsb' 0 8)) ∧
    (∀ w' : CmdWord, opField w' = opField w → opField w ≠ 0x01#8 →
      (opField w = 0x04#8 → (argField w').extractLsb' 0 8 = (argField w).extractLsb' 0 8) →
      ∀ s : State, exec (decode w') s = exec (decode w) s) ∧
    encode (decode w) = cmdWord (opField w)
      (if opField w = 0x01#8 then argField w else if opField w = 0x04#8 then argField w &&& 0xFF#32 else 0#32)

/-- R83: every 40-bit word belongs to exactly one row of the opcode table, the row of the command it decodes to. -/
def Obligations.EveryWordSelectsOneRow : Prop :=
  ∀ w : CmdWord, opcodeTable.filter (fun row => row.selects w) = [opcodeRow (decode w)]

/-- R82: the opcode map, for every `ARG`. -/
def Obligations.OpcodeMap : Prop :=
  ∀ arg : Word,
    decode (cmdWord 0x00#8 arg) = .nop ∧ decode (cmdWord 0x01#8 arg) = .loadKey arg ∧
    decode (cmdWord 0x02#8 arg) = .startEnc ∧ decode (cmdWord 0x03#8 arg) = .startDec ∧
    decode (cmdWord 0x04#8 arg) = .pushByte (arg.setWidth 8) ∧ decode (cmdWord 0x05#8 arg) = .popByte ∧
    decode (cmdWord 0x06#8 arg) = .endStream ∧ decode (cmdWord 0x07#8 arg) = .readStatus ∧
    decode (cmdWord 0x08#8 arg) = .readT ∧ decode (cmdWord 0x09#8 arg) = .readS ∧
    decode (cmdWord 0x0A#8 arg) = .readBlkcnt ∧ decode (cmdWord 0x0B#8 arg) = .clear ∧
    ∀ op : BitVec 8, (decode (cmdWord op arg)).isReserved = true ↔ 0x0C ≤ op.toNat

/-- R80, R82: a few words written out from the spec's encoding (95_test_vectors.md) decode to what they stand for. -/
def Obligations.SampleWordsDecode : Prop :=
  decodeTableWord 40 0x0112345678 = some (.loadKey 0x12345678#32) ∧
  decodeTableWord 40 0x04000000AB = some (.pushByte 0xAB#8) ∧
  decodeTableWord 40 0x0500000000 = some .popByte ∧
  decodeTableWord 40 0x0B00000000 = some .clear ∧
  decodeTableWord 40 0x0C00000000 = some (.reserved0C0F 0#2) ∧
  decodeTableWord 40 0xFF12345678 = some (.reserved80FF 0x7F#7)

/-! ## The step -/

/-- R94, R260, R261: with a command at the head of the host's queue a step is `exec` of the decoded command. Held, nothing
changes and the run is stuck there; accepted, the command leaves the queue and one response joins the channel. The queue and
the list of responses are the model's own way of showing the command port (log entry 2). -/
def Obligations.StepRunsTheIssuedCommand : Prop :=
  ∀ (s : State) (cmd : CmdWord) (rest : List HostAction),
    invariantsHold s = true → s.hostQueue = .command cmd :: rest →
      step s = exec (decode cmd) s ∧
      (held (decode cmd) s = true → step s = .next s) ∧
      (held (decode cmd) s = false →
        ∃ t v, step s = .next t ∧ t.hostQueue = rest ∧ t.responses = s.responses ++ [v])

/-- R360: a reset sets every element to its reset value whatever the state was, makes `STATUS` 0, and differs from `CLEAR`
only in also clearing `KEY` and `KEYV`. That it keeps the host's later actions and the responses is the model's choice
(log entry 2), since the spec gives no storage to either. -/
def Obligations.StepAppliesReset : Prop :=
  ∀ (s : State) (rest : List HostAction), s.hostQueue = .reset :: rest →
    ∃ t, step s = .next t ∧ statusWord t = 0#32 ∧
      t = { key := 0#32, keyv := false, phase := .idle, mode := .encrypt, err := .noError,
            gt := Grid.ZERO, gs := Grid.ZERO, inBuf := Vector.replicate 32 0#8, inCnt := 0,
            outBuf := Vector.replicate 32 0#8, outCnt := 0, blkcnt := 0#32,
            hostQueue := rest, responses := s.responses } ∧
      ∀ c, exec .clear s = .next c →
        t = { c with key := 0#32, keyv := false, hostQueue := rest, responses := s.responses }

/-- R336: with nothing issued the engine does nothing and all state is retained; that the model shows this as a step is its
own choice (log entry 9). -/
def Obligations.QuietWithoutHostAction : Prop :=
  ∀ s : State, s.hostQueue = [] → step s = .next s

/-- U9 of 93_implementation_defined.md (log entry 4): a command issued in a state that breaks R36 has no successor, and
that is the only way a step stops. -/
def Obligations.BrokenInvariantsFault : Prop :=
  (∀ (s : State) (cmd : CmdWord) (rest : List HostAction), invariantsHold s = false →
    s.hostQueue = .command cmd :: rest → step s = .fault .invariantViolated) ∧
  (∀ (s : State) (r : Fault), step s = .fault r → invariantsHold s = false) ∧
  (∀ (s : State) (r : Refusal), step s ≠ .refused r)

/-- R260: the three ways a command goes, by the sets the rule names, and no other: held, ignored, or applied and
completed with exactly one response. Leaving the host's queue and joining the list of responses is the model's own way of
saying that a command is accepted and answered (log entry 2). -/
def Obligations.CommandHeldIgnoredOrCompleted : Prop :=
  ∀ (i : Instr) (s : State),
    (HeldSet i ∧ s.outCnt ≠ 0 → exec i s = .next s) ∧
    (¬ (HeldSet i ∧ s.outCnt ≠ 0) → s.phase = .error → ¬ ErrorSet i → exec i s = .next (answered 0#32 s)) ∧
    (¬ (HeldSet i ∧ s.outCnt ≠ 0) →
      ∃ t v, exec i s = .next t ∧ t.responses = s.responses ++ [v] ∧ t.hostQueue = s.hostQueue.tail)

/-! ## Invariants -/

/-- R36 and R278 hold right after reset, whatever the host then issues. -/
def Obligations.ResetMeetsInvariants : Prop :=
  ∀ program : List HostAction,
    invariantsHold (startWith program) = true ∧ ScheduleFollowsKey (startWith program) ∧
      GridsOnASchedule (startWith program)

/-- R36: every step keeps the invariants. -/
def Obligations.StepKeepsInvariants : Prop :=
  ∀ s t : State, invariantsHold s = true → step s = .next t → invariantsHold t = true

/-- R36, clause by clause, in every state a run from reset passes through. -/
def Obligations.ReachableStatesMeetInvariants : Prop :=
  ∀ s : State, Reachable s →
    phaseCode s.phase ≠ 3#2 ∧
    s.inCnt.val ≤ 31 ∧ s.outCnt.val ≤ 32 ∧
    (s.phase = .error ↔ s.err ≠ .noError) ∧
    (errCode s.err = 0#3 ∨ errCode s.err = 1#3 ∨ errCode s.err = 3#3 ∨ errCode s.err = 5#3) ∧
    (s.phase = .stream → s.keyv = true) ∧
    (s.inCnt ≠ 0 → s.phase = .stream ∨ s.phase = .error) ∧
    (s.phase = .idle → s.inCnt = 0)

/-- R260: no run from reset ever stops; in every reachable state the next step has a next state, and no command that the
host could issue instead would fault. -/
def Obligations.ReachableStatesNeverStop : Prop :=
  ∀ s : State, Reachable s → (∃ t, step s = .next t) ∧ Safe s

/-- R377: a run ends with every action accepted or stuck at a held command, and in no other way; until then each step
accepts the next action, so the end comes within as many steps as the program has actions. Two things here are the
model's readings: a run at a held command is stuck even where a reset follows it, because actions are taken in order (log
entry 6, DEDUCED, unsafe), and a finished run goes on in steps that change nothing (log entry 9, DEDUCED). -/
def Obligations.RunsEndFinishedOrStuck : Prop :=
  (∀ s : State, Reachable s →
    (step s = .next s ↔ finished s = true ∨ stuck s = true) ∧
    (finished s = false → stuck s = false → ∃ t, step s = .next t ∧ t.hostQueue = s.hostQueue.tail)) ∧
  (∀ program : List HostAction, ∃ t, Host.Core.run core program.length (startWith program) = .next t ∧
    (finished t = true ∨ stuck t = true))

/-- R278: every step keeps the grids of an open session on the schedule of the loaded key, and, given that, keeps them in
every phase on some key's schedule or cleared. The premise of the second part is the first part's invariant: it rules out a
session that is open on cleared grids, which no run reaches. -/
def Obligations.StepKeepsSchedule : Prop :=
  ∀ s t : State, step s = .next t →
    (ScheduleFollowsKey s → ScheduleFollowsKey t) ∧ (ScheduleFollowsKey s → GridsOnASchedule s → GridsOnASchedule t)

/-! ## Results of the commands -/

/-- R263. -/
def Obligations.NopResult : Prop :=
  ∀ s : State, exec .nop s = .next (answered 0#32 s)

/-- R266. -/
def Obligations.LoadKeyResult : Prop :=
  ∀ (k : Word) (s : State),
    (s.outCnt ≠ 0 → exec (.loadKey k) s = .next s) ∧
    (s.outCnt = 0 → s.phase = .idle →
      exec (.loadKey k) s = .next (answered 0#32 { s with key := k, keyv := true })) ∧
    (s.outCnt = 0 → s.phase = .stream → s.err = .noError →
      exec (.loadKey k) s = .next (errored .commandIllegal s)) ∧
    (s.outCnt = 0 → s.phase = .error → exec (.loadKey k) s = .next (answered 0#32 s))

/-- R265, R267, R277: both session commands, each with its mode bit. -/
def Obligations.StartResult : Prop :=
  ∀ (i : Instr) (m : Mode) (s : State), (i = .startEnc ∧ m = .encrypt) ∨ (i = .startDec ∧ m = .decrypt) →
    (s.outCnt ≠ 0 → exec i s = .next s) ∧
    (s.outCnt = 0 → s.phase = .idle → s.keyv = true →
      exec i s = .next (answered 0#32 { s with
        mode := m, gt := seed Config.templateT s.key, gs := seed Config.templateS s.key,
        inCnt := 0, blkcnt := 0#32, phase := .stream })) ∧
    (s.outCnt = 0 → s.phase = .idle → s.keyv = false → s.err = .noError →
      exec i s = .next (errored .keyMissing s)) ∧
    (s.outCnt = 0 → s.phase = .stream → s.err = .noError → exec i s = .next (errored .commandIllegal s)) ∧
    (s.outCnt = 0 → s.phase = .error → exec i s = .next (answered 0#32 s))

/-- R268, R275: bytes 1 to 31 of a frame only fill `IN_BUF`; byte 32 runs the whole block step. -/
def Obligations.PushByteResult : Prop :=
  ∀ (b : Byte) (s : State),
    (s.outCnt ≠ 0 → exec (.pushByte b) s = .next s) ∧
    (s.outCnt = 0 → s.phase = .stream → ∀ h : s.inCnt.val < 31,
      exec (.pushByte b) s = .next (answered 0#32 { s with
        inBuf := s.inBuf.set s.inCnt.val b, inCnt := ⟨s.inCnt.val + 1, by omega⟩ })) ∧
    (s.outCnt = 0 → s.phase = .stream → s.inCnt.val = 31 →
      exec (.pushByte b) s = .next (answered 0#32 { s with
        gt := gridSteps 11 s.gt
        gs := gridSteps 11 s.gs
        inBuf := s.inBuf.set 31 b
        inCnt := 0
        outBuf := pack (match s.mode with
          | .encrypt => scramble (gxor (unpack (s.inBuf.set 31 b)) (gridSteps 11 s.gs)) (gridSteps 11 s.gt)
          | .decrypt => gxor (unscramble (unpack (s.inBuf.set 31 b)) (gridSteps 11 s.gt)) (gridSteps 11 s.gs))
        outCnt := 32
        blkcnt := s.blkcnt + 1#32 })) ∧
    (s.outCnt = 0 → s.phase = .idle → s.err = .noError →
      exec (.pushByte b) s = .next (errored .commandIllegal s)) ∧
    (s.outCnt = 0 → s.phase = .error → exec (.pushByte b) s = .next (answered 0#32 s))

/-- R269, R85: in every phase; with `k` bytes of the frame already read, the byte `OUT_BUF[k]`. -/
def Obligations.PopByteResult : Prop :=
  ∀ s : State,
    (s.outCnt = 0 → exec .popByte s = .next (answered 0#32 s)) ∧
    (∀ (k : Nat) (hk : k < 32), s.outCnt.val = 32 - k →
      exec .popByte s =
        .next (answered (0x100#32 ||| (s.outBuf[k]).setWidth 32) { s with outCnt := ⟨31 - k, by omega⟩ }))

/-- R270. -/
def Obligations.EndStreamResult : Prop :=
  ∀ s : State,
    (s.outCnt ≠ 0 → exec .endStream s = .next s) ∧
    (s.outCnt = 0 → s.phase = .stream → s.inCnt = 0 →
      exec .endStream s = .next (answered 0#32 { s with phase := .idle })) ∧
    (s.outCnt = 0 → s.phase = .stream → s.inCnt ≠ 0 → s.err = .noError →
      exec .endStream s = .next (errored .inputLengthInvalid s)) ∧
    (s.outCnt = 0 → s.phase = .idle → s.err = .noError →
      exec .endStream s = .next (errored .commandIllegal s)) ∧
    (s.outCnt = 0 → s.phase = .error → exec .endStream s = .next (answered 0#32 s))

/-- R271, R32: in every phase, the response is a word with the fields of R32, and nothing else changes; after reset it
is 0. -/
def Obligations.ReadStatusResult : Prop :=
  exec .readStatus State.reset = .next (answered 0x00000000#32 State.reset) ∧
  ∀ s : State, ∃ v : Word, exec .readStatus s = .next (answered v s) ∧
    v.extractLsb' 0 2 = (match s.phase with | .idle => 0#2 | .stream => 1#2 | .error => 2#2) ∧
    v.getLsbD 2 = decide (s.mode = .decrypt) ∧
    v.getLsbD 3 = s.keyv ∧
    (v.extractLsb' 4 5).toNat = s.inCnt.val ∧
    (v.extractLsb' 9 6).toNat = s.outCnt.val ∧
    v.getLsbD 15 = false ∧
    v.extractLsb' 16 3 = (match s.err with
      | .noError => 0#3 | .inputLengthInvalid => 1#3 | .ioFailure => 2#3 | .keyMissing => 3#3
      | .keyParseFailure => 4#3 | .commandIllegal => 5#3 | .reserved6 => 6#3 | .reserved7 => 7#3) ∧
    v.extractLsb' 19 13 = 0#13

/-- R272, R273: the output frame is filled whole with the packed grid. -/
def Obligations.ReadGridResult : Prop :=
  ∀ (i : Instr) (g : Grid) (s : State), (i = .readT ∧ g = s.gt) ∨ (i = .readS ∧ g = s.gs) →
    (s.outCnt ≠ 0 → exec i s = .next s) ∧
    (s.outCnt = 0 → s.phase ≠ .error → exec i s = .next (answered 0#32 { s with outBuf := pack g, outCnt := 32 })) ∧
    (s.outCnt = 0 → s.phase = .error → exec i s = .next (answered 0#32 s))

/-- R274. -/
def Obligations.ReadBlkcntResult : Prop :=
  ∀ s : State, exec .readBlkcnt s = .next (answered s.blkcnt s)

/-- R276: in every phase; `KEY` and `KEYV` are kept. The last two fields are the model's command port (log entry 2). -/
def Obligations.ClearResult : Prop :=
  ∀ s : State, exec .clear s = .next
    { key := s.key, keyv := s.keyv, phase := .idle, mode := .encrypt, err := .noError,
      gt := Grid.ZERO, gs := Grid.ZERO, inBuf := Vector.replicate 32 0#8, inCnt := 0,
      outBuf := Vector.replicate 32 0#8, outCnt := 0, blkcnt := 0#32,
      hostQueue := s.hostQueue.tail, responses := s.responses ++ [0#32] }

/-- R264: never held, so no hypothesis on `OUT_CNT`; the effect of a reserved opcode is the error entry. -/
def Obligations.ReservedResult : Prop :=
  ∀ (i : Instr) (s : State), i.isReserved = true →
    (s.phase ≠ .error → s.err = .noError → exec i s = .next (errored .commandIllegal s)) ∧
    (s.phase = .error → exec i s = .next (answered 0#32 s))

/-! ## Errors -/

/-- R323: errors are precise. -/
def Obligations.ErrorEntryChangesNothingElse : Prop :=
  ∀ (i : Instr) (s t : State), s.phase ≠ .error → s.err = .noError → exec i s = .next t → t.phase = .error →
    t = errored t.err s ∧ t.err ≠ .noError

/-- R321, R322, R324, R330: the commands that raise each error, exactly, and no other code is ever written. -/
def Obligations.ErrorCauses : Prop :=
  ∀ (i : Instr) (s : State), s.phase ≠ .error → s.err = .noError → held i s = false →
    (exec i s = .next (errored .keyMissing s) ↔
      s.phase = .idle ∧ s.keyv = false ∧ (i = .startEnc ∨ i = .startDec)) ∧
    (exec i s = .next (errored .inputLengthInvalid s) ↔ s.phase = .stream ∧ i = .endStream ∧ s.inCnt ≠ 0) ∧
    (exec i s = .next (errored .commandIllegal s) ↔
      (s.phase = .stream ∧ ((∃ k, i = .loadKey k) ∨ i = .startEnc ∨ i = .startDec)) ∨
      (s.phase = .idle ∧ ((∃ b, i = .pushByte b) ∨ i = .endStream)) ∨ i.isReserved = true) ∧
    (∀ t, exec i s = .next t → errCode t.err = 0#3 ∨ errCode t.err = 1#3 ∨ errCode t.err = 3#3 ∨ errCode t.err = 5#3)

/-- R325, R326: in phase `ERROR` only `ERROR_SET` acts, a held command is still held, and the first error stays latched
until `CLEAR`. -/
def Obligations.ErrorStaysLatched : Prop :=
  ∀ (i : Instr) (s t : State), s.phase = .error → exec i s = .next t →
    (i ≠ .clear → t.phase = .error ∧ t.err = s.err) ∧
    (¬ ErrorSet i → HeldSet i ∧ s.outCnt ≠ 0 ∧ t = s ∨ ¬ (HeldSet i ∧ s.outCnt ≠ 0) ∧ t = answered 0#32 s)

/-- R328: `CLEAR` returns from an error: the phase is `IDLE` with no error latched and the key is kept, and a key loaded
before still opens a session. -/
def Obligations.ClearReturnsFromError : Prop :=
  ∀ s : State, s.phase = .error → ∃ t, exec .clear s = .next t ∧ t.phase = .idle ∧ t.err = .noError ∧
    t.key = s.key ∧ t.keyv = s.keyv ∧
    (s.keyv = true → ∃ u, exec .startEnc t = .next u ∧ u.phase = .stream ∧ u.gt = seed Config.templateT s.key)

/-! ## Whole-machine rules -/

/-- R261: a held command changes nothing; only `POP_BYTE` and `CLEAR` lower `OUT_CNT`, and neither is ever held; the
output frame is not overwritten while bytes of it are unread, but by `CLEAR`. -/
def Obligations.PendingOutputIsProtected : Prop :=
  ∀ (i : Instr) (s : State),
    (HeldSet i → s.outCnt ≠ 0 → exec i s = .next s) ∧
    (∀ t, exec i s = .next t → t.outCnt < s.outCnt → i = .popByte ∨ i = .clear) ∧
    (i = .popByte ∨ i = .clear → held i s = false) ∧
    (∀ t, s.outCnt ≠ 0 → i ≠ .clear → exec i s = .next t → t.outBuf = s.outBuf)

/-- R262: the phase moves, and no other command changes `PHASE`. -/
def Obligations.PhaseMoves : Prop :=
  ∀ (i : Instr) (s t : State), exec i s = .next t → t.phase ≠ s.phase →
    (s.phase = .idle ∧ t.phase = .stream ∧ s.keyv = true ∧ (i = .startEnc ∨ i = .startDec)) ∨
    (s.phase = .stream ∧ t.phase = .idle ∧ s.inCnt = 0 ∧ i = .endStream) ∨
    (s.phase ≠ .error ∧ t.phase = .error ∧ t.err ≠ .noError) ∨
    (t.phase = .idle ∧ i = .clear)

/-- R37: the frame of every command, element by element: which commands write each element, and that every other
command leaves it. `PHASE` is left by every command but the session commands, `END_STREAM` and `CLEAR`, or by an error
entry (R24). A `PUSH_BYTE` short of a full frame writes `IN_BUF` and `IN_CNT` alone. -/
def Obligations.OnlyTheirCommandsWriteThem : Prop :=
  ∀ (i : Instr) (s t : State), exec i s = .next t →
    ((∀ k, i ≠ .loadKey k) → t.key = s.key ∧ t.keyv = s.keyv) ∧
    (i ≠ .startEnc → i ≠ .startDec → i ≠ .endStream → i ≠ .clear →
      t.phase = s.phase ∨ (s.phase ≠ .error ∧ t.phase = .error ∧ t.err ≠ .noError)) ∧
    (i ≠ .startEnc → i ≠ .startDec → i ≠ .clear → t.mode = s.mode) ∧
    (i ≠ .clear → t.err = s.err ∨ (s.err = .noError ∧ t.phase = .error)) ∧
    (i ≠ .startEnc → i ≠ .startDec → i ≠ .clear → (∀ b, i ≠ .pushByte b) →
      t.gt = s.gt ∧ t.gs = s.gs ∧ t.inBuf = s.inBuf ∧ t.inCnt = s.inCnt ∧ t.blkcnt = s.blkcnt) ∧
    (∀ b, i = .pushByte b → s.inCnt ≠ 31 →
      t.gt = s.gt ∧ t.gs = s.gs ∧ t.blkcnt = s.blkcnt ∧ t.outBuf = s.outBuf ∧ t.outCnt = s.outCnt) ∧
    (i = .startEnc ∨ i = .startDec → t.inBuf = s.inBuf) ∧
    ((∀ b, i ≠ .pushByte b) → i ≠ .readT → i ≠ .readS → i ≠ .clear → t.outBuf = s.outBuf) ∧
    ((∀ b, i ≠ .pushByte b) → i ≠ .readT → i ≠ .readS → i ≠ .clear → i ≠ .popByte → t.outCnt = s.outCnt)

/-- R22: the host cannot read `KEY` back: no command's response or status depends on it, and only the session commands
read it. -/
def Obligations.KeyIsNotReadable : Prop :=
  ∀ (i : Instr) (s t : State) (k : Word), exec i s = .next t →
    ∃ t', exec i { s with key := k } = .next t' ∧ t'.responses = t.responses ∧ statusWord t' = statusWord t ∧
      (i ≠ .startEnc → i ≠ .startDec → t' = { t with key := t'.key })

/-- R28, R168: no write to `GS` depends on `GT` and no write to `GT` depends on `GS`. -/
def Obligations.StreamsAreIndependent : Prop :=
  ∀ (i : Instr) (s t : State) (g : Grid), exec i s = .next t →
    (∃ t', exec i { s with gs := g } = .next t' ∧ t'.gt = t.gt) ∧
    (∃ t', exec i { s with gt := g } = .next t' ∧ t'.gs = t.gs)

/-- R31: `BLKCNT` changes nothing but itself and the response of `READ_BLKCNT`. -/
def Obligations.BlockCountIsInformational : Prop :=
  ∀ (i : Instr) (s t : State) (n : Word), exec i s = .next t →
    ∃ t', exec i { s with blkcnt := n } = .next t' ∧
      t' = { t with blkcnt := t'.blkcnt, responses := t'.responses } ∧
      (i ≠ .readBlkcnt → t'.responses = t.responses)

/-- R29: bytes of `IN_BUF` at index `IN_CNT` and above are never read. -/
def Obligations.StaleInputIsNeverRead : Prop :=
  ∀ (i : Instr) (s s' t : State), SameButStaleInput s s' → exec i s = .next t →
    ∃ t', exec i s' = .next t' ∧ SameButStaleInput t t'

/-! ## CA engine -/

/-- R121, R123, R124, R203, R204, R240: set, row and column values, the swaps and XOR, cell by cell; a swap is an
involution, is the same either way round, and does nothing when its two positions are one. -/
def Obligations.GridOperations : Prop :=
  ∀ (g h k : Grid) (r c a b : Fin 16) (v : Bool),
    cell (setCell g r c v) a b = (if a = r ∧ b = c then v else cell g a b) ∧ setCell g r c (cell g r c) = g ∧
    (rowval g r).getLsbD (15 - c.val) = cell g r c ∧ (colval g c).getLsbD (15 - r.val) = cell g r c ∧
    cell (swapRows g a b) r c = (if r = a then cell g b c else if r = b then cell g a c else cell g r c) ∧
    cell (swapCols g a b) r c = (if c = a then cell g r b else if c = b then cell g r a else cell g r c) ∧
    swapRows (swapRows g a b) a b = g ∧ swapRows g a b = swapRows g b a ∧ swapRows g a a = g ∧
    swapCols (swapCols g a b) a b = g ∧ swapCols g a b = swapCols g b a ∧ swapCols g a a = g ∧
    cell (gxor g h) r c = (cell g r c ^^ cell h r c) ∧ gxor (gxor g h) h = g ∧ gxor g Grid.ZERO = g ∧
    gxor g g = Grid.ZERO ∧ gxor g h = gxor h g ∧ gxor (gxor g h) k = gxor g (gxor h k)

/-- R122, on every grid: the sum of the cells at toroidal distance exactly 1 (R130's distance), so the cell itself is not
counted; at most 8; 0 on `ZERO` and 8 on `ONES`; a single live cell is counted once by each cell at that distance and by
no other. -/
def Obligations.NeighbourCount : Prop :=
  (∀ (g : Grid) (r c : Fin 16), nbr g r c =
    ∑ r' : Fin 16, ∑ c' : Fin 16, if torusDist r c r' c' = 1 then (cell g r' c').toNat else 0) ∧
  (∀ (g : Grid) (r c : Fin 16), nbr g r c ≤ 8) ∧
  (∀ r c : Fin 16, nbr Grid.ZERO r c = 0 ∧ nbr Grid.ONES r c = 8) ∧
  (∀ a b r c : Fin 16, nbr (setCell Grid.ZERO a b true) r c = if torusDist r c a b = 1 then 1 else 0)

/-- R125: the whole table. -/
def Obligations.RuleTable : Prop :=
  (List.range 9).map (cellRule true) = [false, false, true, true, true, false, false, false, false] ∧
  (List.range 9).map (cellRule false) = [false, false, true, true, true, true, true, false, false]

/-- R126: every successor cell from the previous grid alone; `ZERO`, `ONES` and a single live cell go to `ZERO`. -/
def Obligations.GenerationStep : Prop :=
  (∀ (g : Grid) (r c : Fin 16), cell (gridStep g) r c =
    if cell g r c = true then decide (2 ≤ nbr g r c ∧ nbr g r c ≤ 4) else decide (2 ≤ nbr g r c ∧ nbr g r c ≤ 6)) ∧
  gridStep Grid.ZERO = Grid.ZERO ∧ gridStep Grid.ONES = Grid.ZERO ∧
  (∀ r c : Fin 16, gridStep (setCell Grid.ZERO r c true) = Grid.ZERO)

/-- R127, R128, R165: iterated steps add up; a stream that reaches `ZERO` or `ONES` is `ZERO` from then on. -/
def Obligations.IteratedSteps : Prop :=
  (∀ g : Grid, gridSteps 0 g = g) ∧ (∀ (n : Nat) (g : Grid), gridSteps (n + 1) g = gridStep (gridSteps n g)) ∧
  (∀ (m n : Nat) (g : Grid), gridSteps m (gridSteps n g) = gridSteps (m + n) g) ∧
  (∀ n : Nat, gridSteps n Grid.ZERO = Grid.ZERO ∧ gridSteps (n + 1) Grid.ONES = Grid.ZERO) ∧
  (∀ g : Grid, advance g = gridSteps 11 g) ∧ advance Grid.ZERO = Grid.ZERO ∧ advance Grid.ONES = Grid.ZERO

/-- R129: a generation commutes with the symmetries of the torus. -/
def Obligations.GenerationCommutesWithSymmetries : Prop :=
  ∀ g : Grid,
    (∀ a b : Fin 16, gridStep (torusShift a b g) = torusShift a b (gridStep g)) ∧
    gridStep (reflectRows g) = reflectRows (gridStep g) ∧
    gridStep (reflectCols g) = reflectCols (gridStep g) ∧
    gridStep (transposeGrid g) = transposeGrid (gridStep g) ∧
    gridStep (transposeGrid (reflectRows g)) = transposeGrid (reflectRows (gridStep g))

/-- R130: after `n` generations a cell depends only on the cells within toroidal Chebyshev distance `n`, and the largest
such distance is 8. -/
def Obligations.GenerationLocality : Prop :=
  (∀ (n : Nat) (g h : Grid) (r c : Fin 16),
    (∀ r' c' : Fin 16, torusDist r c r' c' ≤ n → cell g r' c' = cell h r' c') →
      cell (gridSteps n g) r c = cell (gridSteps n h) r c) ∧
  (∀ r c r' c' : Fin 16, torusDist r c r' c' ≤ 8) ∧ (∃ r c r' c' : Fin 16, torusDist r c r' c' = 8)

/-! ## Packing and key schedule -/

/-- R90, R93: the byte and the bit each cell is packed into, and the two bytes of a row. -/
def Obligations.PackLayout : Prop :=
  ∀ (g : Grid) (r c : Fin 16),
    ((pack g)[2 * r.val + c.val / 8]'(by omega)).getLsbD (7 - c.val % 8) = cell g r c ∧
    (pack g)[2 * r.val]'(by omega) = (rowval g r).extractLsb' 8 8 ∧
    (pack g)[2 * r.val + 1]'(by omega) = (rowval g r).extractLsb' 0 8

/-- R92: packing is a bijection. -/
def Obligations.PackUnpackInverse : Prop :=
  (∀ g : Grid, unpack (pack g) = g) ∧ (∀ b : Frame, pack (unpack b) = b)

/-- R163, R164: what each kind of template cell is seeded with, and the population of a seed of well-formed templates. -/
def Obligations.SeedPopulation : Prop :=
  (∀ (t : Template) (k : Word) (r c : Fin 16), cell (seed t k) r c =
    match templateCell t r c with | .zero => false | .one => true | .keyBit i => k.getLsbD i.val) ∧
  (∀ (tT tS : Template) (k : Word), templateWf tT tS = true →
    popcount (seed tT k) = 64 + 4 * popcount k ∧ popcount (seed tS k) = 64 + 4 * popcount k)

/-- R167: the subkey pair of a block index in closed form, and from the one before it. -/
def Obligations.ScheduleClosedForm : Prop :=
  ∀ (k : Word) (i : Nat),
    subkeyT k i = gridSteps (11 * (i + 1)) (seed Config.templateT k) ∧
    subkeyS k i = gridSteps (11 * (i + 1)) (seed Config.templateS k) ∧
    subkeyT k (i + 1) = advance (subkeyT k i) ∧ subkeyS k (i + 1) = advance (subkeyS k i)

/-! ## Scrambler and block cipher -/

/-- R207: the contract, both ways. -/
def Obligations.UnscrambleUndoesScramble : Prop :=
  ∀ p t : Grid, unscramble (scramble p t) t = p ∧ scramble (unscramble p t) t = p

/-- R208: V is a permutation of rows and a permutation of columns, so it keeps weight, is linear, and its two sweeps
commute; the order within a sweep does matter. -/
def Obligations.ScrambleIsCellPermutation : Prop :=
  (∃ t p : Grid, rowSweep (rowidx t) descending p ≠ rowSweep (rowidx t) ascending p) ∧
  ∀ t : Grid,
    Function.Bijective (sigma t) ∧ Function.Bijective (tau t) ∧
    (∀ (p : Grid) (r c : Fin 16), cell (scramble p t) r c = cell p (sigma t r) (tau t c)) ∧
    (∀ p : Grid, popcount (scramble p t) = popcount p) ∧
    (∀ a b : Grid, scramble (gxor a b) t = gxor (scramble a t) (scramble b t)) ∧
    scramble Grid.ZERO t = Grid.ZERO ∧ scramble Grid.ONES t = Grid.ONES ∧
    (∀ p : Grid, rowSweep (rowidx t) ascending (colSweep (colidx t) ascending p) = scramble p t)

/-- R201, R202, R209: each index as the four bits it reads, the first the most significant; the 32 indices read 128 distinct
cells of T, none by both a row and a column index; each index depends on every cell it reads, and V depends on no other cell. -/
def Obligations.IndicesReadDisjointCells : Prop :=
  (∀ (t : Grid) (j : Fin 16), ∀ a : Fin 16, a.val = (3 * j.val) % 4 →
    (rowidx t j).val = 8 * (cell t j a).toNat + 4 * (cell t j (a + 4)).toNat + 2 * (cell t j (a + 8)).toNat
      + (cell t j (a + 12)).toNat) ∧
  (∀ (t : Grid) (j : Fin 16), ∀ b : Fin 16, b.val = (3 * j.val + 3) % 4 →
    (colidx t j).val = 8 * (cell t b j).toNat + 4 * (cell t (b + 4) j).toNat + 2 * (cell t (b + 8) j).toNat
      + (cell t (b + 12) j).toNat) ∧
  (∀ r c : Fin 16, ¬ (rowidxReads r c = true ∧ colidxReads r c = true)) ∧
  ((List.finRange 16).flatMap fun r => (List.finRange 16).filter fun c => rowidxReads r c || colidxReads r c).length
    = 128 ∧
  (∀ (t : Grid) (r c : Fin 16), rowidxReads r c = true →
    rowidx (setCell t r c (!cell t r c)) r ≠ rowidx t r) ∧
  (∀ (t : Grid) (r c : Fin 16), colidxReads r c = true →
    colidx (setCell t r c (!cell t r c)) c ≠ colidx t c) ∧
  (∀ p t t' : Grid,
    (∀ r c : Fin 16, rowidxReads r c = true ∨ colidxReads r c = true → cell t r c = cell t' r c) →
      scramble p t = scramble p t')

/-- R211: equal indices 0 or 15 give the cyclic shift by one, so `ZERO` and `ONES` scramble by the (1,1) shift and V is no
involution. -/
def Obligations.DeadStreamShifts : Prop :=
  (∀ t : Grid, (∀ j, rowidx t j = 0) ∨ (∀ j, rowidx t j = 15) → ∀ k, sigma t k = k - 1) ∧
  (∀ t : Grid, (∀ j, colidx t j = 0) ∨ (∀ j, colidx t j = 15) → ∀ k, tau t k = k - 1) ∧
  (∀ p : Grid, scramble p Grid.ZERO = torusShift 1 1 p ∧ scramble p Grid.ONES = torusShift 1 1 p) ∧
  (∀ p : Grid, scramble (scramble p Grid.ZERO) Grid.ZERO = torusShift 2 2 p) ∧
  (∃ p : Grid, scramble (scramble p Grid.ZERO) Grid.ZERO ≠ p)

/-- R243, R244: a block decrypts to what was encrypted, and the other way, as grids and as frames. -/
def Obligations.BlockRoundTrip : Prop :=
  ∀ t s : Grid,
    (∀ p : Grid, decBlock (encBlock p t s) t s = p ∧ encBlock (decBlock p t s) t s = p) ∧
    (∀ b : Frame, decFrame (encFrame b t s) t s = b ∧ encFrame (decFrame b t s) t s = b)

/-- R246: weight, affinity and bijectivity of a block's encryption. -/
def Obligations.BlockStructure : Prop :=
  ∀ t s : Grid,
    (∀ p : Grid, popcount (encBlock p t s) = popcount (gxor p s)) ∧
    (∀ p q : Grid, encBlock (gxor p q) t s = gxor (encBlock p t s) (scramble q t)) ∧
    Function.Bijective fun p => encBlock p t s

/-! ## Sessions -/

/-- R244, R275, R280: the byte that completes a frame in an encrypting engine, and the byte that completes the frame it
put out in a decrypting engine at the same place of the schedule: the second puts out the first's input. -/
def Obligations.EnginesUndoEachOther : Prop :=
  ∀ (s d s' d' : State) (b : Byte) (c : Byte),
    s.outCnt = 0 → s.phase = .stream → s.mode = .encrypt → s.inCnt = 31 → exec (.pushByte b) s = .next s' →
    d.outCnt = 0 → d.phase = .stream → d.mode = .decrypt → d.inCnt = 31 → d.gt = s.gt → d.gs = s.gs →
    d.inBuf.set 31 c = s'.outBuf → exec (.pushByte c) d = .next d' →
      d'.outBuf = s'.inBuf ∧ d'.gt = s'.gt ∧ d'.gs = s'.gs

/-- R279: a session over any frames, under any key, from any idle state with nothing pending. Every command is accepted,
and the popped bytes are the frames of the closed form, in order. The host's queue and the list of responses are the model's
own (log entry 2). -/
def Obligations.SessionOutput : Prop :=
  ∀ (s : State) (k : Word) (bs : List Frame) (rest : List HostAction),
    invariantsHold s = true → s.phase = .idle → s.outCnt = 0 →
    (s.hostQueue = issue (sessionCommands .startEnc k bs) ++ rest →
      ∃ t, Host.Core.run core (3 + 64 * bs.length) s = .next t ∧ t.hostQueue = rest ∧ t.phase = .idle ∧
        t.responses = s.responses ++ sessionResponses (encFrames k 0 bs) ∧
        t.blkcnt = BitVec.ofNat 32 bs.length) ∧
    (s.hostQueue = issue (sessionCommands .startDec k bs) ++ rest →
      ∃ t, Host.Core.run core (3 + 64 * bs.length) s = .next t ∧ t.hostQueue = rest ∧ t.phase = .idle ∧
        t.responses = s.responses ++ sessionResponses (decFrames k 0 bs) ∧
        t.blkcnt = BitVec.ofNat 32 bs.length)

/-- R280, R282: decrypting a session's output gives its input; encrypting `X ‖ Y` gives the encryption of `X`, then `Y`
under the subkeys that follow. -/
def Obligations.SessionRoundTrip : Prop :=
  ∀ (k : Word) (i : Nat) (xs ys : List Frame),
    decFrames k i (encFrames k i xs) = xs ∧
    encFrames k i (xs ++ ys) = encFrames k i xs ++ encFrames k (i + xs.length) ys

/-! ## Assembler -/

/-- R95: what each command assembles to, as a mnemonic with or without an operand, and what is an assembly error: the ten
operandless mnemonics, which are also lines of text by themselves, and the two that need an operand in range. A comment
changes no line, and nothing assembles to a reserved opcode. That `LOAD_KEY` or `PUSH_BYTE` without its operand is an error
is the model's reading of R95 (log entry 7). -/
def Obligations.AssemblerRanges : Prop :=
  (∀ p ∈ plainCommands, assemble ⟨p.2.1, none⟩ = some p.2.2 ∧ (∀ n : Nat, assemble ⟨p.2.1, some n⟩ = none) ∧
    assembleLine p.1 = some [p.2.2]) ∧
  assemble ⟨.loadKey, none⟩ = none ∧ assemble ⟨.pushByte, none⟩ = none ∧
  (∀ n : Nat, assemble ⟨.loadKey, some n⟩ = if n < 2 ^ 32 then some (.loadKey (BitVec.ofNat 32 n)) else none) ∧
  (∀ n : Nat, assemble ⟨.pushByte, some n⟩ = if n ≤ 255 then some (.pushByte (BitVec.ofNat 8 n)) else none) ∧
  (∀ (a : AsmCommand) (i : Instr), assemble a = some i →
    i.isReserved = false ∧ (a.operand.isSome = true ↔ a.mnemonic = .loadKey ∨ a.mnemonic = .pushByte)) ∧
  (∀ line comment : List Char, assembleLine (line ++ ';' :: comment) = assembleLine line) ∧
  (∀ (line : List Char) (is : List Instr) (i : Instr), assembleLine line = some is → i ∈ is → i.isReserved = false)

/-- R96: the expansion of each pseudo-instruction; the session forms give the session's commands, one `PUSH_BYTE` for each
byte, and a byte count that is no whole number of blocks is an error (the model's choice: log entry 7). -/
def Obligations.PseudoExpansion : Prop :=
  (∀ xs : List Byte, expand (.pushBytes (xs.map fun x => x.toNat)) = some (xs.map .pushByte)) ∧
  (∀ b : Frame, expand (.pushBlock (b.toList.map fun x => x.toNat)) = some (b.toList.map .pushByte)) ∧
  (∀ xs : List Nat, xs.length ≠ 32 → expand (.pushBlock xs) = none) ∧
  (∀ n : Nat, expand (.popN n) = some (List.replicate n .popByte)) ∧
  expand .popBlock = some (List.replicate 32 .popByte) ∧
  (∀ (k : Nat) (bs : List Frame), k < 2 ^ 32 →
    expand (.encryptSession k ((bs.flatMap fun b => b.toList).map fun x => x.toNat))
      = some (sessionCommands .startEnc (BitVec.ofNat 32 k) bs) ∧
    expand (.decryptSession k ((bs.flatMap fun b => b.toList).map fun x => x.toNat))
      = some (sessionCommands .startDec (BitVec.ofNat 32 k) bs)) ∧
  (∀ (k : Nat) (xs : List Nat), xs.length % 32 ≠ 0 →
    expand (.encryptSession k xs) = none ∧ expand (.decryptSession k xs) = none)
end

