-- ==== Sys2Proof/Laws/Bits.lean ====
section
/-! SUPPORT. The one law of each bit-field helper: reading back the bits a value was built from. -/

namespace Sys2Proof.Laws

open Sys2Proof.Machine

theorem msbNat_lt (f : Nat → Bool) (n : Nat) : msbNat f n < 2 ^ n := by
  induction n with
  | zero => simp [msbNat]
  | succ n ih =>
    have hb : (f n).toNat ≤ 1 := Bool.toNat_le (f n)
    rw [msbNat, pow_succ]
    omega

/-- Bit `i` of the built number is the `(n-1-i)`-th one given. -/
theorem testBit_msbNat (f : Nat → Bool) (n i : Nat) (h : i < n) :
    (msbNat f n).testBit i = f (n - 1 - i) := by
  induction n generalizing i with
  | zero => omega
  | succ n ih =>
    have hb : (f n).toNat < 2 := Bool.toNat_lt (f n)
    cases i with
    | zero =>
      cases hf : f n <;> simp [msbNat, Nat.testBit_zero, hf]
    | succ i =>
      have hdiv : (2 * msbNat f n + (f n).toNat) / 2 = msbNat f n := by omega
      rw [msbNat, Nat.testBit_succ, hdiv, ih i (by omega)]
      congr 1
      omega

/-- The `i`-th bit from the top of `{f 0, …, f (n-1)}` is `f i`. -/
@[simp] theorem getMsbD_msbFirst (n : Nat) (f : Nat → Bool) (i : Nat) (h : i < n) :
    (msbFirst n f).getMsbD i = f i := by
  have hlt : n - 1 - i < n := by omega
  have hback : n - 1 - (n - 1 - i) = i := by omega
  rw [BitVec.getMsbD_eq_getLsbD, msbFirst, BitVec.getLsbD_ofNat, testBit_msbNat f n _ hlt, hback]
  simp [h, hlt]

/-- The same, counted from the bottom: bit `i` of `{f 0, …, f (n-1)}` is `f (n-1-i)` (R8's `v[i]`). -/
theorem getLsbD_msbFirst (n : Nat) (f : Nat → Bool) (i : Nat) (h : i < n) :
    (msbFirst n f).getLsbD i = f (n - 1 - i) := by
  rw [msbFirst, BitVec.getLsbD_ofNat, testBit_msbNat f n i h]
  simp [h]

theorem toNat_msbFirst (n : Nat) (f : Nat → Bool) : (msbFirst n f).toNat = msbNat f n := by
  rw [msbFirst, BitVec.toNat_ofNat, Nat.mod_eq_of_lt (msbNat_lt f n)]

end Sys2Proof.Laws
end

