-- ==== Sys2Proof/Laws/Decode.lean ====
section
/-! SUPPORT. The fields of a command word put together from them (30_encoding.md rule R80). -/

namespace Sys2Proof.Laws

/-- The high part of a concatenation. -/
theorem extractLsb'_append_high {m n : Nat} (a : BitVec m) (b : BitVec n) : (a ++ b).extractLsb' n m = a := by
  apply BitVec.eq_of_getLsbD_eq
  intro i hi
  simp [BitVec.getLsbD_append, hi]

/-- The lowest bits of a concatenation, no more than its low part has. -/
theorem extractLsb'_append_low {m n : Nat} (a : BitVec m) (b : BitVec n) (k : Nat) (hk : k ≤ n) :
    (a ++ b).extractLsb' 0 k = b.extractLsb' 0 k := by
  apply BitVec.eq_of_getLsbD_eq
  intro i hi
  have hin : i < n := by omega
  simp [BitVec.getLsbD_append, hi, hin]

/-- A mask applied to a concatenation is applied to its parts. -/
theorem append_and_append {m n : Nat} (a c : BitVec m) (b d : BitVec n) :
    (a ++ b) &&& (c ++ d) = (a &&& c) ++ (b &&& d) := by
  apply BitVec.eq_of_getLsbD_eq
  intro i hi
  by_cases hlow : i < n <;> simp [BitVec.getLsbD_append, hlow]

@[simp] theorem opField_cmdWord (op : BitVec 8) (arg : Word) : opField (cmdWord op arg) = op :=
  extractLsb'_append_high op arg

@[simp] theorem argField_cmdWord (op : BitVec 8) (arg : Word) : argField (cmdWord op arg) = arg := by
  rw [argField, cmdWord, extractLsb'_append_low op arg 32 (by omega), BitVec.extractLsb'_eq_self]

/-- A command word is its two fields. -/
theorem cmdWord_fields (cmd : CmdWord) : cmdWord (opField cmd) (argField cmd) = cmd := by
  apply BitVec.eq_of_getLsbD_eq
  intro i hi
  simp only [cmdWord, opField, argField, BitVec.getLsbD_append, BitVec.getLsbD_extractLsb']
  split
  · simp_all
  · have h8 : i - 32 < 8 := by omega
    have hback : 32 + (i - 32) = i := by omega
    simp [h8, hback]

@[simp] theorem keyOperand_self (arg : Word) : keyOperand arg = arg := rfl

@[simp] theorem byteOperand_zext (b : Byte) : byteOperand (0#24 ++ b) = b := by
  rw [byteOperand, extractLsb'_append_low 0#24 b 8 (by omega), BitVec.extractLsb'_eq_self]

end Sys2Proof.Laws
end

