-- ==== Sys2Proof/Laws/Grid.lean ====
section
/-! SUPPORT. A grid is its 256 cells: cells read back from `ofCells`, equality of grids cell by cell (00_scope.md rule R9),
and, from these two, what each grid operation does to a cell. Later proofs cite these lemmas and never open `Grid` as a
bit vector. -/

namespace Sys2Proof.Laws

open Sys2Proof.Machine

@[simp] theorem cell_ofCells (f : Fin 16 → Fin 16 → Bool) (r c : Fin 16) : cell (ofCells f) r c = f r c := by
  have hr : Fin.ofNat 16 ((16 * r.val + c.val) / 16) = r := by
    apply Fin.ext
    rw [Fin.val_ofNat]
    omega
  have hc : Fin.ofNat 16 (16 * r.val + c.val) = c := by
    apply Fin.ext
    rw [Fin.val_ofNat]
    omega
  rw [cell, ofCells, getMsbD_msbFirst 256 _ _ (by omega), hr, hc]

/-- Grid equality is equality at all 256 cells (R9). -/
theorem grid_ext {g h : Grid} (hcell : ∀ r c, cell g r c = cell h r c) : g = h := by
  apply BitVec.eq_of_getMsbD_eq
  intro i hi
  have hrc := hcell (Fin.ofNat 16 (i / 16)) (Fin.ofNat 16 i)
  have hidx : 16 * (Fin.ofNat 16 (i / 16)).val + (Fin.ofNat 16 i).val = i := by
    rw [Fin.val_ofNat, Fin.val_ofNat]
    omega
  rwa [cell, cell, hidx] at hrc

@[simp] theorem ofCells_cell (g : Grid) : ofCells (cell g) = g := grid_ext fun r c => cell_ofCells _ r c

@[simp] theorem cell_ZERO (r c : Fin 16) : cell Grid.ZERO r c = false := by
  simp [cell, Grid.ZERO]

@[simp] theorem cell_ONES (r c : Fin 16) : cell Grid.ONES r c = true := by
  rw [cell, Grid.ONES, BitVec.getMsbD_allOnes]
  simp only [decide_eq_true_eq]
  omega

@[simp] theorem cell_gxor (a b : Grid) (r c : Fin 16) : cell (gxor a b) r c = (cell a r c ^^ cell b r c) := by
  simp [cell, gxor, BitVec.getMsbD_xor]

@[simp] theorem cell_swapRows (g : Grid) (a b r c : Fin 16) :
    cell (swapRows g a b) r c = if r = a then cell g b c else if r = b then cell g a c else cell g r c := by
  rw [swapRows, cell_ofCells]

@[simp] theorem cell_swapCols (g : Grid) (a b r c : Fin 16) :
    cell (swapCols g a b) r c = if c = a then cell g r b else if c = b then cell g r a else cell g r c := by
  rw [swapCols, cell_ofCells]

/-- Bit `p` of the byte `b_k` of `pack(G)` (R90, read with `p = 7 − (c mod 8)`). -/
theorem getLsbD_packByte (g : Grid) (k : Fin 32) (p : Nat) (hp : p < 8) :
    (packByte g k).getLsbD p = cell g (Fin.ofNat 16 (k.val / 2)) (Fin.ofNat 16 (8 * (k.val % 2) + (7 - p))) := by
  rw [packByte, getLsbD_msbFirst 8 _ p hp]

@[simp] theorem getElem_pack (g : Grid) (k : Nat) (hk : k < 32) : (pack g)[k] = packByte g ⟨k, hk⟩ := by
  simp [pack]

@[simp] theorem cell_unpack (b : Frame) (r c : Fin 16) :
    cell (unpack b) r c = (b[2 * r.val + c.val / 8]'(by omega)).getLsbD (7 - c.val % 8) := by
  rw [unpack, cell_ofCells]

@[simp] theorem cell_seed (t : Template) (k : Word) (r c : Fin 16) :
    cell (seed t k) r c = seedCell k (templateCell t r c) := by
  rw [seed, cell_ofCells]

end Sys2Proof.Laws
end

