-- ==== Sys2Proof/Laws/State.lean ====
section
/-! SUPPORT. One lemma per field of State per shared update, so that no proof unfolds a record update: what each of
the operations of Machine/Ops.lean, Session.lean, Stream.lean and Readout.lean writes, and what it leaves. -/

namespace Sys2Proof.Laws

open Sys2Proof.Machine

/-! `respond` (R84) -/

@[simp] theorem respond_key (v : Word) (s : State) : (respond v s).key = s.key := rfl
@[simp] theorem respond_keyv (v : Word) (s : State) : (respond v s).keyv = s.keyv := rfl
@[simp] theorem respond_phase (v : Word) (s : State) : (respond v s).phase = s.phase := rfl
@[simp] theorem respond_mode (v : Word) (s : State) : (respond v s).mode = s.mode := rfl
@[simp] theorem respond_err (v : Word) (s : State) : (respond v s).err = s.err := rfl
@[simp] theorem respond_gt (v : Word) (s : State) : (respond v s).gt = s.gt := rfl
@[simp] theorem respond_gs (v : Word) (s : State) : (respond v s).gs = s.gs := rfl
@[simp] theorem respond_inBuf (v : Word) (s : State) : (respond v s).inBuf = s.inBuf := rfl
@[simp] theorem respond_inCnt (v : Word) (s : State) : (respond v s).inCnt = s.inCnt := rfl
@[simp] theorem respond_outBuf (v : Word) (s : State) : (respond v s).outBuf = s.outBuf := rfl
@[simp] theorem respond_outCnt (v : Word) (s : State) : (respond v s).outCnt = s.outCnt := rfl
@[simp] theorem respond_blkcnt (v : Word) (s : State) : (respond v s).blkcnt = s.blkcnt := rfl
@[simp] theorem respond_hostQueue (v : Word) (s : State) : (respond v s).hostQueue = s.hostQueue.tail := rfl
@[simp] theorem respond_responses (v : Word) (s : State) : (respond v s).responses = s.responses ++ [v] := rfl

/-! `raiseError` (R323) -/

@[simp] theorem raiseError_key (code : ErrCode) (s : State) : (raiseError code s).key = s.key := rfl
@[simp] theorem raiseError_keyv (code : ErrCode) (s : State) : (raiseError code s).keyv = s.keyv := rfl
@[simp] theorem raiseError_phase (code : ErrCode) (s : State) : (raiseError code s).phase = .error := rfl
@[simp] theorem raiseError_mode (code : ErrCode) (s : State) : (raiseError code s).mode = s.mode := rfl
@[simp] theorem raiseError_err (code : ErrCode) (s : State) : (raiseError code s).err = if s.err = .noError then code else s.err := rfl
@[simp] theorem raiseError_gt (code : ErrCode) (s : State) : (raiseError code s).gt = s.gt := rfl
@[simp] theorem raiseError_gs (code : ErrCode) (s : State) : (raiseError code s).gs = s.gs := rfl
@[simp] theorem raiseError_inBuf (code : ErrCode) (s : State) : (raiseError code s).inBuf = s.inBuf := rfl
@[simp] theorem raiseError_inCnt (code : ErrCode) (s : State) : (raiseError code s).inCnt = s.inCnt := rfl
@[simp] theorem raiseError_outBuf (code : ErrCode) (s : State) : (raiseError code s).outBuf = s.outBuf := rfl
@[simp] theorem raiseError_outCnt (code : ErrCode) (s : State) : (raiseError code s).outCnt = s.outCnt := rfl
@[simp] theorem raiseError_blkcnt (code : ErrCode) (s : State) : (raiseError code s).blkcnt = s.blkcnt := rfl
@[simp] theorem raiseError_hostQueue (code : ErrCode) (s : State) : (raiseError code s).hostQueue = s.hostQueue.tail := rfl
@[simp] theorem raiseError_responses (code : ErrCode) (s : State) : (raiseError code s).responses = s.responses ++ [0#32] := rfl

/-! `clearSession` (R276) -/

@[simp] theorem clearSession_key (s : State) : (clearSession s).key = s.key := rfl
@[simp] theorem clearSession_keyv (s : State) : (clearSession s).keyv = s.keyv := rfl
@[simp] theorem clearSession_phase (s : State) : (clearSession s).phase = .idle := rfl
@[simp] theorem clearSession_mode (s : State) : (clearSession s).mode = .encrypt := rfl
@[simp] theorem clearSession_err (s : State) : (clearSession s).err = .noError := rfl
@[simp] theorem clearSession_gt (s : State) : (clearSession s).gt = Grid.ZERO := rfl
@[simp] theorem clearSession_gs (s : State) : (clearSession s).gs = Grid.ZERO := rfl
@[simp] theorem clearSession_inBuf (s : State) : (clearSession s).inBuf = Vector.replicate 32 0#8 := rfl
@[simp] theorem clearSession_inCnt (s : State) : (clearSession s).inCnt = 0 := rfl
@[simp] theorem clearSession_outBuf (s : State) : (clearSession s).outBuf = Vector.replicate 32 0#8 := rfl
@[simp] theorem clearSession_outCnt (s : State) : (clearSession s).outCnt = 0 := rfl
@[simp] theorem clearSession_blkcnt (s : State) : (clearSession s).blkcnt = 0#32 := rfl
@[simp] theorem clearSession_hostQueue (s : State) : (clearSession s).hostQueue = s.hostQueue := rfl
@[simp] theorem clearSession_responses (s : State) : (clearSession s).responses = s.responses := rfl

/-! `applyReset` (R360) -/

@[simp] theorem applyReset_key (s : State) : (applyReset s).key = 0#32 := rfl
@[simp] theorem applyReset_keyv (s : State) : (applyReset s).keyv = false := rfl
@[simp] theorem applyReset_phase (s : State) : (applyReset s).phase = .idle := rfl
@[simp] theorem applyReset_mode (s : State) : (applyReset s).mode = .encrypt := rfl
@[simp] theorem applyReset_err (s : State) : (applyReset s).err = .noError := rfl
@[simp] theorem applyReset_gt (s : State) : (applyReset s).gt = Grid.ZERO := rfl
@[simp] theorem applyReset_gs (s : State) : (applyReset s).gs = Grid.ZERO := rfl
@[simp] theorem applyReset_inBuf (s : State) : (applyReset s).inBuf = Vector.replicate 32 0#8 := rfl
@[simp] theorem applyReset_inCnt (s : State) : (applyReset s).inCnt = 0 := rfl
@[simp] theorem applyReset_outBuf (s : State) : (applyReset s).outBuf = Vector.replicate 32 0#8 := rfl
@[simp] theorem applyReset_outCnt (s : State) : (applyReset s).outCnt = 0 := rfl
@[simp] theorem applyReset_blkcnt (s : State) : (applyReset s).blkcnt = 0#32 := rfl
@[simp] theorem applyReset_hostQueue (s : State) : (applyReset s).hostQueue = s.hostQueue := rfl
@[simp] theorem applyReset_responses (s : State) : (applyReset s).responses = s.responses := rfl

/-! `openSession` (R265) -/

@[simp] theorem openSession_key (m : Mode) (s : State) : (openSession m s).key = s.key := rfl
@[simp] theorem openSession_keyv (m : Mode) (s : State) : (openSession m s).keyv = s.keyv := rfl
@[simp] theorem openSession_phase (m : Mode) (s : State) : (openSession m s).phase = .stream := rfl
@[simp] theorem openSession_mode (m : Mode) (s : State) : (openSession m s).mode = m := rfl
@[simp] theorem openSession_err (m : Mode) (s : State) : (openSession m s).err = s.err := rfl
@[simp] theorem openSession_gt (m : Mode) (s : State) : (openSession m s).gt = seed Config.templateT s.key := rfl
@[simp] theorem openSession_gs (m : Mode) (s : State) : (openSession m s).gs = seed Config.templateS s.key := rfl
@[simp] theorem openSession_inBuf (m : Mode) (s : State) : (openSession m s).inBuf = s.inBuf := rfl
@[simp] theorem openSession_inCnt (m : Mode) (s : State) : (openSession m s).inCnt = 0 := rfl
@[simp] theorem openSession_outBuf (m : Mode) (s : State) : (openSession m s).outBuf = s.outBuf := rfl
@[simp] theorem openSession_outCnt (m : Mode) (s : State) : (openSession m s).outCnt = s.outCnt := rfl
@[simp] theorem openSession_blkcnt (m : Mode) (s : State) : (openSession m s).blkcnt = 0#32 := rfl
@[simp] theorem openSession_hostQueue (m : Mode) (s : State) : (openSession m s).hostQueue = s.hostQueue.tail := rfl
@[simp] theorem openSession_responses (m : Mode) (s : State) : (openSession m s).responses = s.responses ++ [0#32] := rfl

/-! `storeInput` (R268) -/

@[simp] theorem storeInput_key (b : Byte) (s : State) : (storeInput b s).key = s.key := rfl
@[simp] theorem storeInput_keyv (b : Byte) (s : State) : (storeInput b s).keyv = s.keyv := rfl
@[simp] theorem storeInput_phase (b : Byte) (s : State) : (storeInput b s).phase = s.phase := rfl
@[simp] theorem storeInput_mode (b : Byte) (s : State) : (storeInput b s).mode = s.mode := rfl
@[simp] theorem storeInput_err (b : Byte) (s : State) : (storeInput b s).err = s.err := rfl
@[simp] theorem storeInput_gt (b : Byte) (s : State) : (storeInput b s).gt = s.gt := rfl
@[simp] theorem storeInput_gs (b : Byte) (s : State) : (storeInput b s).gs = s.gs := rfl
@[simp] theorem storeInput_inBuf (b : Byte) (s : State) : (storeInput b s).inBuf = s.inBuf.set s.inCnt.val b := rfl
@[simp] theorem storeInput_inCnt (b : Byte) (s : State) : (storeInput b s).inCnt = s.inCnt := rfl
@[simp] theorem storeInput_outBuf (b : Byte) (s : State) : (storeInput b s).outBuf = s.outBuf := rfl
@[simp] theorem storeInput_outCnt (b : Byte) (s : State) : (storeInput b s).outCnt = s.outCnt := rfl
@[simp] theorem storeInput_blkcnt (b : Byte) (s : State) : (storeInput b s).blkcnt = s.blkcnt := rfl
@[simp] theorem storeInput_hostQueue (b : Byte) (s : State) : (storeInput b s).hostQueue = s.hostQueue := rfl
@[simp] theorem storeInput_responses (b : Byte) (s : State) : (storeInput b s).responses = s.responses := rfl

/-! `blockStep` (R275) -/

@[simp] theorem blockStep_key (s : State) : (blockStep s).key = s.key := rfl
@[simp] theorem blockStep_keyv (s : State) : (blockStep s).keyv = s.keyv := rfl
@[simp] theorem blockStep_phase (s : State) : (blockStep s).phase = s.phase := rfl
@[simp] theorem blockStep_mode (s : State) : (blockStep s).mode = s.mode := rfl
@[simp] theorem blockStep_err (s : State) : (blockStep s).err = s.err := rfl
@[simp] theorem blockStep_gt (s : State) : (blockStep s).gt = advance s.gt := rfl
@[simp] theorem blockStep_gs (s : State) : (blockStep s).gs = advance s.gs := rfl
@[simp] theorem blockStep_inBuf (s : State) : (blockStep s).inBuf = s.inBuf := rfl
@[simp] theorem blockStep_inCnt (s : State) : (blockStep s).inCnt = 0 := rfl
@[simp] theorem blockStep_outBuf (s : State) : (blockStep s).outBuf = blockOutput s.mode s.inBuf (advance s.gt) (advance s.gs) := rfl
@[simp] theorem blockStep_outCnt (s : State) : (blockStep s).outCnt = 32 := rfl
@[simp] theorem blockStep_blkcnt (s : State) : (blockStep s).blkcnt = s.blkcnt + 1#32 := rfl
@[simp] theorem blockStep_hostQueue (s : State) : (blockStep s).hostQueue = s.hostQueue := rfl
@[simp] theorem blockStep_responses (s : State) : (blockStep s).responses = s.responses := rfl

/-! `fillOutput` (R272, R273) -/

@[simp] theorem fillOutput_key (g : Grid) (s : State) : (fillOutput g s).key = s.key := rfl
@[simp] theorem fillOutput_keyv (g : Grid) (s : State) : (fillOutput g s).keyv = s.keyv := rfl
@[simp] theorem fillOutput_phase (g : Grid) (s : State) : (fillOutput g s).phase = s.phase := rfl
@[simp] theorem fillOutput_mode (g : Grid) (s : State) : (fillOutput g s).mode = s.mode := rfl
@[simp] theorem fillOutput_err (g : Grid) (s : State) : (fillOutput g s).err = s.err := rfl
@[simp] theorem fillOutput_gt (g : Grid) (s : State) : (fillOutput g s).gt = s.gt := rfl
@[simp] theorem fillOutput_gs (g : Grid) (s : State) : (fillOutput g s).gs = s.gs := rfl
@[simp] theorem fillOutput_inBuf (g : Grid) (s : State) : (fillOutput g s).inBuf = s.inBuf := rfl
@[simp] theorem fillOutput_inCnt (g : Grid) (s : State) : (fillOutput g s).inCnt = s.inCnt := rfl
@[simp] theorem fillOutput_outBuf (g : Grid) (s : State) : (fillOutput g s).outBuf = pack g := rfl
@[simp] theorem fillOutput_outCnt (g : Grid) (s : State) : (fillOutput g s).outCnt = 32 := rfl
@[simp] theorem fillOutput_blkcnt (g : Grid) (s : State) : (fillOutput g s).blkcnt = s.blkcnt := rfl
@[simp] theorem fillOutput_hostQueue (g : Grid) (s : State) : (fillOutput g s).hostQueue = s.hostQueue.tail := rfl
@[simp] theorem fillOutput_responses (g : Grid) (s : State) : (fillOutput g s).responses = s.responses ++ [0#32] := rfl

end Sys2Proof.Laws
end

