-- ==== Sys2Proof/Laws/Ops.lean ====
section
/-! SUPPORT. What each shared operation can do, said once: `command` (45_framer_pipeline.md rule R260) has three ways to
end, `exec` is `command` with the rule of its instruction, and `step` does one of four things. Later proofs cite these and
do not unfold the dispatch. -/

namespace Sys2Proof.Laws

open Sys2Proof.Machine

/-- The rule each command applies once it is neither held nor ignored (R262). -/
def ruleOf : Instr → State → State
  | .nop => nopRule
  | .loadKey k => loadKeyRule k
  | .startEnc => startRule .encrypt
  | .startDec => startRule .decrypt
  | .pushByte b => pushByteRule b
  | .popByte => popByteRule
  | .endStream => endStreamRule
  | .readStatus => readStatusRule
  | .readT => readTRule
  | .readS => readSRule
  | .readBlkcnt => readBlkcntRule
  | .clear => clearRule
  | .reserved0C0F _ => reservedRule
  | .reserved101F _ => reservedRule
  | .reserved203F _ => reservedRule
  | .reserved407F _ => reservedRule
  | .reserved80FF _ => reservedRule

theorem exec_eq_command (i : Instr) (s : State) : exec i s = command i (ruleOf i) s := by
  cases i <;> rfl

theorem command_of_held {i : Instr} {s : State} (rule : State → State) (h : held i s = true) :
    command i rule s = .next s := by
  rw [command, if_pos h]

theorem command_of_ignored {i : Instr} {s : State} (rule : State → State) (hh : held i s = false)
    (hi : ignored i s = true) : command i rule s = .next (respond 0#32 s) := by
  rw [command, if_neg (by simp [hh]), if_pos hi]

theorem command_of_applied {i : Instr} {s : State} (rule : State → State) (hh : held i s = false)
    (hi : ignored i s = false) : command i rule s = .next (rule s) := by
  rw [command, if_neg (by simp [hh]), if_neg (by simp [hi])]

/-- Everything `command` can do. -/
theorem command_cases {i : Instr} {rule : State → State} {s t : State} (h : command i rule s = .next t) :
    (held i s = true ∧ t = s) ∨ (held i s = false ∧ ignored i s = true ∧ t = respond 0#32 s) ∨
      (held i s = false ∧ ignored i s = false ∧ t = rule s) := by
  cases hh : held i s with
  | true =>
    rw [command_of_held rule hh] at h
    exact .inl ⟨rfl, (Host.Outcome.next.inj h).symm⟩
  | false =>
    cases hi : ignored i s with
    | true =>
      rw [command_of_ignored rule hh hi] at h
      exact .inr (.inl ⟨rfl, rfl, (Host.Outcome.next.inj h).symm⟩)
    | false =>
      rw [command_of_applied rule hh hi] at h
      exact .inr (.inr ⟨rfl, rfl, (Host.Outcome.next.inj h).symm⟩)

/-- Everything a command can do. -/
theorem exec_cases {i : Instr} {s t : State} (h : exec i s = .next t) :
    (held i s = true ∧ t = s) ∨ (held i s = false ∧ ignored i s = true ∧ t = respond 0#32 s) ∨
      (held i s = false ∧ ignored i s = false ∧ t = ruleOf i s) :=
  command_cases (exec_eq_command i s ▸ h)

/-- A held command is in `HELD_SET` and finds output pending. -/
theorem held_eq_true {i : Instr} {s : State} : held i s = true ↔ inHeldSet i = true ∧ s.outCnt ≠ 0 := by
  simp [held]

/-- With no output pending nothing is held. -/
theorem held_of_drained {i : Instr} {s : State} (h : s.outCnt = 0) : held i s = false := by
  simp [held, h]

/-- A command outside `HELD_SET` is never held. -/
theorem held_of_not_inHeldSet {i : Instr} {s : State} (h : inHeldSet i = false) : held i s = false := by
  simp [held, h]

/-- An ignored command finds the engine in phase `ERROR` and is outside `ERROR_SET`. -/
theorem ignored_eq_true {i : Instr} {s : State} : ignored i s = true ↔ s.phase = .error ∧ inErrorSet i = false := by
  simp [ignored]

/-- Outside phase `ERROR` nothing is ignored. -/
theorem ignored_of_phase {i : Instr} {s : State} (h : s.phase ≠ .error) : ignored i s = false := by
  simp [ignored, h]

/-- A command in `ERROR_SET` is never ignored. -/
theorem ignored_of_inErrorSet {i : Instr} {s : State} (h : inErrorSet i = true) : ignored i s = false := by
  simp [ignored, h]

/-- Everything a step can do when it gives a next state. -/
theorem step_cases {s t : State} (h : step s = .next t) :
    (nextAction s = none ∧ t = s) ∨
    (nextAction s = some .reset ∧ t = { applyReset s with hostQueue := s.hostQueue.tail }) ∨
    (∃ cmd, nextAction s = some (.command cmd) ∧ invariantsHold s = true ∧ exec (decode cmd) s = .next t) := by
  unfold step at h
  split at h
  · rename_i ha
    exact .inl ⟨ha, (Host.Outcome.next.inj h).symm⟩
  · rename_i ha
    exact .inr (.inl ⟨ha, (Host.Outcome.next.inj h).symm⟩)
  · rename_i cmd ha
    split at h
    · rename_i hi
      exact .inr (.inr ⟨cmd, ha, hi, h⟩)
    · exact absurd h (by simp)

/-- The invariants of R36 as a proposition: what is left of them beyond the types of the fields. -/
theorem invariantsHold_iff {s : State} :
    invariantsHold s = true ↔
      (s.phase = .error ↔ s.err ≠ .noError) ∧
      (s.err = .noError ∨ s.err = .inputLengthInvalid ∨ s.err = .keyMissing ∨ s.err = .commandIllegal) ∧
      (s.phase = .stream → s.keyv = true) ∧ (s.phase = .idle → s.inCnt = 0) := by
  have hcode : phaseCode s.phase ≠ 3#2 := by cases s.phase <;> decide
  have hin : s.inCnt.val ≤ 31 := by omega
  have hout : s.outCnt.val ≤ 32 := by omega
  simp only [invariantsHold, Bool.and_eq_true, decide_eq_true_eq]
  constructor
  · rintro ⟨⟨⟨⟨⟨_, hc⟩, hd⟩, he⟩, _⟩, hg⟩
    exact ⟨hc, hd, he, hg⟩
  · rintro ⟨hc, hd, he, hg⟩
    refine ⟨⟨⟨⟨⟨⟨⟨hcode, hin⟩, hout⟩, hc⟩, hd⟩, he⟩, fun hne => ?_⟩, hg⟩
    cases hp : s.phase with
    | idle => exact absurd (hg hp) hne
    | stream => exact .inl rfl
    | error => exact .inr rfl

end Sys2Proof.Laws
end

