-- ==== Sys2Proof/Laws/PerInstr.lean ====
section
/-! SUPPORT. Statements about every command as syntax, one lemma per constructor of `Instr`. The family `EncodesRow`: the
encoder's word carries the row's match under the row's mask (spec/opcode_table.json). -/

namespace Sys2Proof.Laws.EncodesRow

/-- The row of `i` selects the word `encode i`. -/
def Statement (i : Instr) : Prop := (opcodeRow i).selects (encode i) = true

/-- A row whose mask is the whole opcode selects the words with that opcode. -/
theorem selects_cmdWord (op : BitVec 8) (arg : Word) :
    (OpcodeRow.selects ⟨0xFF00000000#40, cmdWord op 0#32⟩ (cmdWord op arg)) = true := by
  have hmask : (0xFF00000000#40) = BitVec.allOnes 8 ++ 0#32 := by decide
  have hand : cmdWord op arg &&& (BitVec.allOnes 8 ++ 0#32) = cmdWord op 0#32 := by
    refine (append_and_append op (BitVec.allOnes 8) arg 0#32).trans ?_
    rw [BitVec.and_allOnes, BitVec.and_zero, cmdWord]
  rw [OpcodeRow.selects, decide_eq_true_eq, hmask]
  exact hand

theorem nop : Statement .nop := selects_cmdWord 0x00#8 0#32
theorem loadKey (k : Word) : Statement (.loadKey k) := selects_cmdWord 0x01#8 k
theorem startEnc : Statement .startEnc := selects_cmdWord 0x02#8 0#32
theorem startDec : Statement .startDec := selects_cmdWord 0x03#8 0#32
theorem pushByte (b : Byte) : Statement (.pushByte b) := selects_cmdWord 0x04#8 (0#24 ++ b)
theorem popByte : Statement .popByte := selects_cmdWord 0x05#8 0#32
theorem endStream : Statement .endStream := selects_cmdWord 0x06#8 0#32
theorem readStatus : Statement .readStatus := selects_cmdWord 0x07#8 0#32
theorem readT : Statement .readT := selects_cmdWord 0x08#8 0#32
theorem readS : Statement .readS := selects_cmdWord 0x09#8 0#32
theorem readBlkcnt : Statement .readBlkcnt := selects_cmdWord 0x0A#8 0#32
theorem clear : Statement .clear := selects_cmdWord 0x0B#8 0#32
theorem reserved0C0F (o : BitVec 2) : Statement (.reserved0C0F o) := by revert o; unfold Statement; decide
theorem reserved101F (o : BitVec 4) : Statement (.reserved101F o) := by revert o; unfold Statement; decide
theorem reserved203F (o : BitVec 5) : Statement (.reserved203F o) := by revert o; unfold Statement; decide
theorem reserved407F (o : BitVec 6) : Statement (.reserved407F o) := by revert o; unfold Statement; decide
theorem reserved80FF (o : BitVec 7) : Statement (.reserved80FF o) := by revert o; unfold Statement; decide +kernel

end Sys2Proof.Laws.EncodesRow
end

