-- ==== Sys2Proof/Tests/Slice0.lean ====
section
/-! SUPPORT. Tests of the model on fixed values, and for every obligation with hypotheses a concrete state that meets them.
Expected values come from 95_test_vectors.md (its section is named beside each group) or are read off the rule named. -/

namespace Sys2Proof.Tests

open Sys2Proof Sys2Proof.Machine Sys2Proof.Claims Sys2Proof.Laws

-- One theorem at a time: the checks' memory limit leaves no room for a thread for each.
set_option Elab.async false

/-! ## Helpers -/

/-- `Zero`, `One` and `KeyBit(i)` as 95_test_vectors.md part 3 abbreviates them. -/
def z : TemplateCell := .zero
/-- `One` -/
def o : TemplateCell := .one
/-- `KeyBit(i)` -/
def k (i : Fin 32) : TemplateCell := .keyBit i

/-- TT, the SYNTHETIC transpose template of 95_test_vectors.md part 3; not the hardware's. -/
def synTCells : List TemplateCell :=
  [z, z, k 25, k 12, o, o, o, o, k 7, k 6, o, k 9, o, o, k 20, z]
  ++ [k 10, o, k 18, z, k 6, o, o, z, k 21, o, z, k 9, k 26, z, z, z]
  ++ [o, k 27, z, o, k 8, o, k 30, o, o, z, z, k 17, o, k 10, k 1, k 14]
  ++ [z, o, k 7, k 2, z, o, o, k 16, z, k 5, k 25, k 16, z, z, k 22, k 0]
  ++ [z, o, z, k 14, z, z, k 24, k 23, o, k 1, z, o, k 7, o, k 4, o]
  ++ [z, k 25, z, k 12, k 31, k 12, z, k 24, o, o, k 15, o, z, o, o, k 21]
  ++ [k 21, k 22, o, k 29, z, z, k 28, k 8, o, o, z, k 11, z, z, o, o]
  ++ [o, k 27, k 3, z, o, k 10, z, k 30, o, k 17, o, z, k 2, k 15, z, k 19]
  ++ [k 8, k 17, k 20, k 4, z, k 18, k 14, k 2, z, k 23, z, z, k 22, o, k 29, k 12]
  ++ [k 28, k 15, o, k 20, k 5, k 8, k 9, k 27, o, o, z, k 14, k 23, k 30, o, o]
  ++ [z, k 22, k 19, k 20, z, k 19, o, z, z, z, k 24, o, z, o, k 11, k 25]
  ++ [o, k 13, k 28, z, k 6, z, o, k 21, o, z, k 3, z, k 13, z, k 4, k 31]
  ++ [z, o, k 0, o, o, k 11, z, k 17, k 26, z, k 28, k 6, k 4, k 15, z, k 30]
  ++ [o, z, k 11, z, k 5, k 24, k 10, z, k 0, k 3, k 18, z, z, k 5, o, k 19]
  ++ [k 23, k 31, k 0, k 16, o, k 29, k 2, k 26, k 27, o, z, k 3, k 1, z, k 1, k 7]
  ++ [k 29, z, k 9, k 18, o, k 13, k 31, k 13, o, o, z, o, k 16, k 26, o, o]

/-- TT, the SYNTHETIC transpose template of 95_test_vectors.md part 3; not the hardware's. -/
def synT : Template := ⟨synTCells.toArray, by decide +kernel⟩

/-- TS, the SYNTHETIC shift template of 95_test_vectors.md part 3; not the hardware's. -/
def synSCells : List TemplateCell :=
  [k 2, o, z, k 25, o, k 14, k 9, o, o, z, z, z, o, k 28, z, o]
  ++ [z, z, o, z, k 2, o, k 13, o, z, k 3, z, k 20, k 5, k 18, k 14, z]
  ++ [o, o, k 26, k 3, o, z, z, k 13, k 20, k 20, z, o, z, z, k 21, o]
  ++ [k 2, k 16, o, k 26, k 4, z, k 1, z, k 19, z, z, k 19, k 15, k 5, z, k 27]
  ++ [z, o, o, k 11, o, o, o, o, z, z, k 28, k 22, z, k 31, o, k 1]
  ++ [o, o, z, z, o, o, z, k 12, k 24, o, o, z, z, k 10, k 15, o]
  ++ [o, z, k 25, z, k 19, k 13, o, k 14, k 18, z, k 21, k 1, k 29, z, k 0, k 24]
  ++ [z, k 8, z, k 7, o, o, o, k 5, z, k 0, o, k 23, z, z, z, k 18]
  ++ [k 0, k 5, k 27, k 27, z, o, k 6, k 17, z, z, k 13, k 9, k 6, k 7, k 16, k 30]
  ++ [k 7, o, k 11, k 29, o, o, o, k 9, z, k 8, z, k 27, k 31, z, o, k 12]
  ++ [k 24, k 9, z, o, z, k 11, k 4, k 12, o, z, k 20, k 29, k 2, o, k 28, z]
  ++ [k 15, k 17, o, k 31, k 4, o, o, k 23, o, k 16, k 1, k 21, k 8, k 6, k 10, k 14]
  ++ [z, o, k 3, o, k 10, o, k 12, k 10, k 15, k 22, o, o, z, k 30, k 22, o]
  ++ [o, k 23, k 28, k 31, z, k 0, o, k 30, z, o, k 18, k 8, o, k 3, o, k 6]
  ++ [k 23, k 26, k 11, k 19, k 16, z, z, k 24, k 17, z, z, o, o, k 25, k 30, k 26]
  ++ [z, z, k 4, k 17, k 25, z, k 22, o, z, k 29, k 21, z, o, z, k 7, o]

/-- TS, the SYNTHETIC shift template of 95_test_vectors.md part 3; not the hardware's. -/
def synS : Template := ⟨synSCells.toArray, by decide +kernel⟩

/-- The next state of an outcome. -/
def nextOf (r : Host.Outcome State Fault Refusal) : Option State :=
  match r with
  | .next s => some s
  | .fault _ => none
  | .refused _ => none

/-- A field of the state after a command. -/
def after {α : Type} (i : Instr) (s : State) (f : State → α) : Option α := (nextOf (exec i s)).map f

/-- Idle, with the key 7 loaded. -/
def keyed : State := { State.reset with key := 7#32, keyv := true }

/-- A session open. -/
def streaming : State := { keyed with phase := .stream }

/-- A session open, one byte short of a frame. -/
def almostFull : State := { streaming with inCnt := 31 }

/-- A session open, 17 bytes pushed (P2). -/
def partialFrame : State := { streaming with inCnt := 17 }

/-- A session open, a whole output frame pending. -/
def pending : State := { streaming with outCnt := 32 }

/-- `CommandIllegal` latched. -/
def latched : State := { keyed with phase := .error, err := .commandIllegal }

/-- The state with these commands queued by the host. -/
def queued (s : State) (q : List HostAction) : State := { s with hostQueue := q }

/-- The sample grid `P_count`. -/
def pCount : Grid := 0x000102030405060708090a0b0c0d0e0f101112131415161718191a1b1c1d1e1f#256
/-- The sample grid `T_A`. -/
def tA : Grid := 0x0b30557a9fc4e90e33587da2c7ec11365b80a5caef14395e83a8cdf2173c6186#256
/-- The sample grid `S_A`. -/
def sA : Grid := 0x0560bb1671cc2782dd3893ee49a4ff5ab5106bc6217cd7328de8439ef954af0a#256

/-! ## WellFormed: each check refuses an ill-formed template, and the synthetic pair passes them all (part 3) -/

theorem test_templateWf_synthetic : templateWf synT synS = true := by decide +kernel
theorem test_constants_refuse_allZero : templateConstantsBalanced (Vector.replicate 256 .zero) = false := by decide +kernel
theorem test_keyBits_refuse_index0_only : templateKeyBitsBalanced (Vector.replicate 256 (.keyBit 0)) = false := by
  decide +kernel
/-- Every row uniform, the top half `Zero` and the bottom half `One`: its own column mirror. -/
def halvesByRow : Template := ⟨(List.replicate 128 z ++ List.replicate 128 o).toArray, by decide +kernel⟩
/-- Every column uniform, the left half `Zero` and the right half `One`: its own row mirror. -/
def halvesByColumn : Template :=
  ⟨(List.replicate 16 (List.replicate 8 z ++ List.replicate 8 o)).flatten.toArray, by decide +kernel⟩

theorem test_asymmetric_refuses_column_symmetry : templateAsymmetric halvesByRow = false := by decide +kernel
theorem test_unrelated_refuses_row_mirror : templatesUnrelated halvesByColumn halvesByColumn = false := by decide +kernel
theorem test_templateWf_refuses_unbalanced : templateWf halvesByRow halvesByColumn = false := by decide +kernel

/-! ## Decode: a word of every row, bit by bit from R80 and R82 (OP in bits 39:32, ARG in 31:0) -/

theorem test_decode_nop : decode 0b00000000_00000000000000000000000000000000#40 = .nop := by decide
theorem test_decode_nop_ignores_arg : decode 0b00000000_11111111111111111111111111111111#40 = .nop := by decide
theorem test_decode_loadKey : decode 0b00000001_00010010001101000101011001111000#40 = .loadKey 0x12345678#32 := by decide
theorem test_decode_startEnc : decode 0b00000010_00000000000000000000000000000000#40 = .startEnc := by decide
theorem test_decode_startDec : decode 0b00000011_00000000000000000000000000000000#40 = .startDec := by decide
theorem test_decode_pushByte : decode 0b00000100_00000000000000000000000010101011#40 = .pushByte 0xAB#8 := by decide
theorem test_decode_pushByte_ignores_high_arg :
    decode 0b00000100_11111111111111111111111110101011#40 = .pushByte 0xAB#8 := by decide
theorem test_decode_popByte : decode 0b00000101_00000000000000000000000000000000#40 = .popByte := by decide
theorem test_decode_endStream : decode 0b00000110_00000000000000000000000000000000#40 = .endStream := by decide
theorem test_decode_readStatus : decode 0b00000111_00000000000000000000000000000000#40 = .readStatus := by decide
theorem test_decode_readT : decode 0b00001000_00000000000000000000000000000000#40 = .readT := by decide
theorem test_decode_readS : decode 0b00001001_00000000000000000000000000000000#40 = .readS := by decide
theorem test_decode_readBlkcnt : decode 0b00001010_00000000000000000000000000000000#40 = .readBlkcnt := by decide
theorem test_decode_clear : decode 0b00001011_00000000000000000000000000000000#40 = .clear := by decide
theorem test_decode_reserved0C0F : decode 0b00001110_00000000000000000000000000000000#40 = .reserved0C0F 0b10#2 := by
  decide
theorem test_decode_reserved101F : decode 0b00011001_00000000000000000000000000000000#40 = .reserved101F 0b1001#4 := by
  decide
theorem test_decode_reserved203F : decode 0b00110001_00000000000000000000000000000000#40 = .reserved203F 0b10001#5 := by
  decide
theorem test_decode_reserved407F : decode 0b01100001_00000000000000000000000000000000#40 = .reserved407F 0b100001#6 := by
  decide
theorem test_decode_reserved80FF : decode 0b11000001_00010010001101000101011001111000#40 = .reserved80FF 0b1000001#7 := by
  decide
theorem test_tableWord_rejects_wider_number : decodeTableWord 40 0x10000000000 = none := by decide

/-! ## Packing (§2.1), CA engine (§2.2), key schedule (§2.3) -/

theorem test_unpack_b0_is_top_left :
    (cell (unpack ((Vector.replicate 32 0#8).set 0 0x80#8)) 0 0, cell (unpack ((Vector.replicate 32 0#8).set 0 0x01#8)) 0 7)
      = (true, true) := by decide +kernel
theorem test_unpack_b1_and_b31 :
    (cell (unpack ((Vector.replicate 32 0#8).set 1 0x80#8)) 0 8, cell (unpack ((Vector.replicate 32 0#8).set 31 0x01#8)) 15 15)
      = (true, true) := by decide +kernel
theorem test_pack_pCount : pack pCount = Vector.ofFn fun i : Fin 32 => BitVec.ofNat 8 i.val := by decide +kernel
theorem test_rowval_pCount : rowval pCount 2 = 0b0000010000000101#16 := by decide +kernel
theorem test_colval_first_row : (colval (setCell Grid.ZERO 0 0 true) 0, colval (setCell Grid.ZERO 0 0 true) 1)
    = (0x8000#16, 0x0000#16) := by decide +kernel
theorem test_nbr_wraps_at_corner :
    (nbr (setCell Grid.ZERO 0 0 true) 15 15, nbr (setCell Grid.ZERO 0 0 true) 0 15, nbr (setCell Grid.ZERO 0 0 true) 0 0,
      nbr (setCell Grid.ZERO 0 0 true) 2 2) = (1, 1, 0, 0) := by decide +kernel
theorem test_gridStep_tA : gridStep tA = 0xffffb8ddf57bfeffcfffdc7dfc3ffefffe7ff87dbdfbfef7fe5ffc0dfcff3efe#256 := by
  decide +kernel
theorem test_gridSteps_2_tA : gridSteps 2 tA = 0x82000700078001003100238003c00380038007800304010003f003f003808100#256 := by
  decide +kernel
theorem test_gridStep_sA : gridStep sA = 0xf9bf7fffce7fdc7dfcfffe3ffe7b85fd88ffff7ffedffdcdfc7ffe77bebbfdfd#256 := by
  decide +kernel
theorem test_popcount_tA : popcount tA = 125 := by decide +kernel
theorem test_seed_synT : seed synT 1#32 = 0x0f2c464095884601409500d620c388a0000420c30214828078008082284008d3#256 := by
  decide +kernel
theorem test_seed_synS : seed synS 1#32 = 0x49892500c81120006f02cc6182020e6084004e02108426805431864a00180109#256 := by
  decide +kernel

/-! ## Scrambler (§2.4) and block cipher (§2.5) -/

theorem test_rowidx_tA : (List.finRange 16).map (rowidx tA) = [4, 14, 4, 9, 1, 12, 6, 1, 6, 4, 12, 3, 11, 6, 6, 9] := by
  decide +kernel
theorem test_colidx_tA : (List.finRange 16).map (colidx tA) = [8, 6, 6, 6, 10, 15, 0, 15, 1, 12, 13, 12, 10, 15, 15, 0] := by
  decide +kernel
theorem test_sigma_tA : (List.finRange 16).map (sigma tA) = [4, 7, 0, 11, 3, 12, 1, 2, 6, 15, 5, 10, 9, 8, 13, 14] := by
  decide +kernel
theorem test_tau_tA : (List.finRange 16).map (tau tA) = [14, 0, 1, 2, 10, 15, 8, 5, 6, 12, 11, 9, 13, 7, 4, 3] := by
  decide +kernel
theorem test_scramble_pCount_tA : scramble pCount tA
    = 0x044285ca040085a98588046384800508054a85eb84c2052984a1042184e3056b#256 := by decide +kernel
theorem test_unscramble_pCount_tA : unscramble pCount tA
    = 0x1101112519a51024100031413040188038e4306439c1198118a4316539e538c0#256 := by decide +kernel
theorem test_gxor_pCount_sA : gxor pCount sA
    = 0x0561b91575c92185d53199e545a9f155a50179d53569c12595f15985e549b115#256 := by decide +kernel
theorem test_encBlock : encBlock pCount tA sA
    = 0x6d25743d0d146c0c160c4f35542f37552f44542d4e1f1d55363f5504260f7554#256 := by decide +kernel
theorem test_decBlock : decBlock pCount tA sA
    = 0x1461aa33686937a6cd38a2af79e4e7da8df45ba218bdceb3954c72fbc0b197ca#256 := by decide +kernel

/-! ## Commands (§2.6 and the programs of part 4), one command on one state each -/

/-- The first 31 bytes of P3's input, in a session whose grids are P3's seeds. -/
def p3Start : State :=
  { almostFull with
    gt := 0x3f7eeed0958d4660509754d7a2c3aca03605bad31215aba258388a66085038d3#256
    gs := 0x5f8d255ed8d328046f22cd65a3a00f2146184f0353a62e977f31a26f001c2929#256
    inBuf := pack 0x41545441434b204154204441574e212100000000000000000000000000000000#256 }

/-- P3: the 32nd byte runs the block step; T_0, S_0 and the ciphertext C. -/
theorem test_pushByte_block_step_p3 :
    after (.pushByte 0x00#8) p3Start (fun t => (t.gt, t.gs, unpack t.outBuf, t.outCnt, t.inCnt, t.blkcnt)) =
      some (0xd3effeeeec0ff8ffbd80bf0c9a1cb30cf90c190e139f1ff10903038677c4df2f#256,
        0xf981cf018903d10ee210e611ff0ffd8368c1ec6fbffff1cf58c4de00ff008f81#256,
        0x37d7d6b0f7638bd3821dfbff375785c1c6180a498493c65c4a78c38c8341a609#256, 32, 0, 1#32) := by
  decide +kernel

theorem test_nop_in_error : after .nop latched statusWord = some 0x0005000A#32 := by decide +kernel
theorem test_loadKey_idle : after (.loadKey 1#32) State.reset (fun t => (t.key, statusWord t)) = some (1#32, 0x00000008#32) := by
  decide +kernel
theorem test_loadKey_in_stream : after (.loadKey 2#32) streaming (fun t => (t.key, statusWord t))
    = some (7#32, 0x0005000A#32) := by decide +kernel
theorem test_startEnc_opens : after .startEnc keyed statusWord = some 0x00000009#32 := by decide +kernel
theorem test_startEnc_without_key : after .startEnc State.reset statusWord = some 0x00030002#32 := by decide +kernel
theorem test_startDec_opens : after .startDec keyed statusWord = some 0x0000000D#32 := by decide +kernel
theorem test_startDec_in_stream : after .startDec { streaming with mode := .decrypt } statusWord = some 0x0005000E#32 := by
  decide +kernel
theorem test_pushByte_fills_errs_or_is_held :
    after (.pushByte 0xAB#8) { streaming with inCnt := 5 } (fun t => (t.inBuf[5], t.inCnt)) = some (0xAB#8, 6) ∧
    after (.pushByte 0x41#8) State.reset statusWord = some 0x00050002#32 ∧
    after (.pushByte 0xAA#8) pending (fun t => (statusWord t, t.responses)) = some (0x00004009#32, []) := by
  decide +kernel
theorem test_popByte_first : after .popByte { pending with outBuf := (Vector.replicate 32 0#8).set 0 0x8E#8 }
    (fun t => (t.responses, statusWord t)) = some ([0x0000018E#32], 0x00003E09#32) := by decide +kernel
theorem test_popByte_empty : after .popByte streaming (fun t => (t.responses, statusWord t))
    = some ([0x00000000#32], 0x00000009#32) := by decide +kernel
theorem test_endStream_closes : after .endStream streaming statusWord = some 0x00000008#32 := by decide +kernel
theorem test_endStream_partial_frame : after .endStream partialFrame statusWord = some 0x0001011A#32 := by decide +kernel
theorem test_readStatus_after_reset : after .readStatus State.reset (fun t => t.responses) = some [0x00000000#32] := by
  decide +kernel
theorem test_readT_after_reset : after .readT State.reset (fun t => (t.outBuf, t.outCnt))
    = some (Vector.replicate 32 0#8, 32) := by decide +kernel
theorem test_readS_takes_gs : after .readS { keyed with gs := pCount } (fun t => (t.outBuf[31], t.outCnt))
    = some (0x1F#8, 32) := by decide +kernel
theorem test_readBlkcnt : after .readBlkcnt { streaming with blkcnt := 2#32 } (fun t => t.responses)
    = some [0x00000002#32] := by decide +kernel
theorem test_clear_keeps_key : after .clear { partialFrame with phase := .error, err := .inputLengthInvalid }
    (fun t => (statusWord t, t.key)) = some (0x00000008#32, 7#32) := by decide +kernel
theorem test_reserved0C0F : after (.reserved0C0F 0#2) keyed statusWord = some 0x0005000A#32 := by decide +kernel
theorem test_reserved101F : after (.reserved101F 0#4) keyed statusWord = some 0x0005000A#32 := by decide +kernel
theorem test_reserved203F : after (.reserved203F 0#5) keyed statusWord = some 0x0005000A#32 := by decide +kernel
theorem test_reserved407F : after (.reserved407F 0#6) keyed statusWord = some 0x0005000A#32 := by decide +kernel
theorem test_reserved80FF_ignored_in_error : after (.reserved80FF 0x7F#7) latched (fun t => (statusWord t, t.responses))
    = some (0x0005000A#32, [0#32]) := by decide +kernel
theorem test_fetchWord_runs_first : (nextOf (step (State.reset.withFetchWord 40 0x0300000000))).map statusWord
    = some 0x00030002#32 := by decide +kernel

/-! ## Assembler (R95, R96) -/

theorem test_assemble_hex_operand :
    assembleProgram [['L', 'O', 'A', 'D', '_', 'K', 'E', 'Y', ' ', '0', 'x', 'D', 'e', '1', ' ', ';', ' ', 'k']]
      = some [0x0100000DE1#40] := by decide +kernel
theorem test_assemble_decimal_operand :
    assembleLine ['P', 'U', 'S', 'H', '_', 'B', 'Y', 'T', 'E', ' ', '2', '5', '5'] = some [.pushByte 0xFF#8] := by
  decide +kernel
theorem test_assemble_out_of_range :
    assembleLine ['P', 'U', 'S', 'H', '_', 'B', 'Y', 'T', 'E', ' ', '2', '5', '6'] = none := by decide +kernel
theorem test_assemble_unexpected_operand : assembleLine ['N', 'O', 'P', ' ', '1'] = none := by decide +kernel
theorem test_assemble_popN : assembleLine ['P', 'O', 'P', '_', 'N', ' ', '2'] = some [.popByte, .popByte] := by decide +kernel

/-! ## Witnesses: for each obligation with hypotheses, values that meet all of a clause's hypotheses -/

theorem witness_OperandsAssembled :
    opField 0x0112345678#40 = 0x01#8 ∧ opField 0x04FFFFFFAB#40 = 0x04#8 ∧ opField 0x04000000AB#40 = opField 0x04FFFFFFAB#40 ∧
      opField 0x04FFFFFFAB#40 ≠ 0x01#8 ∧
      (argField 0x04000000AB#40).extractLsb' 0 8 = (argField 0x04FFFFFFAB#40).extractLsb' 0 8 := by decide
theorem witness_StepRunsTheIssuedCommand_accepted :
    invariantsHold (queued keyed [.command 0x0200000000#40]) = true ∧
      held (decode 0x0200000000#40) (queued keyed [.command 0x0200000000#40]) = false := by decide
theorem witness_StepRunsTheIssuedCommand_held :
    invariantsHold (queued pending [.command 0x0600000000#40]) = true ∧
      held (decode 0x0600000000#40) (queued pending [.command 0x0600000000#40]) = true := by decide
theorem witness_StepAppliesReset : (queued pending [.reset, .reset]).hostQueue = .reset :: [.reset] ∧
    exec .clear (queued pending [.reset, .reset]) =
      .next (respond 0#32 (clearSession (queued pending [.reset, .reset]))) := ⟨rfl, rfl⟩
theorem witness_QuietWithoutHostAction : pending.hostQueue = [] := rfl
theorem witness_BrokenInvariantsFault :
    invariantsHold (queued { keyed with inCnt := 1 } [.command 0#40]) = false ∧
      step (queued { keyed with inCnt := 1 } [.command 0#40]) = .fault .invariantViolated := ⟨by decide, rfl⟩
theorem witness_CommandHeldIgnoredOrCompleted :
    (HeldSet .readT ∧ pending.outCnt ≠ 0) ∧ ¬ (HeldSet .startDec ∧ latched.outCnt ≠ 0) ∧ latched.phase = .error ∧
      ¬ ErrorSet .startDec ∧ ¬ (HeldSet .popByte ∧ pending.outCnt ≠ 0) := by
  refine ⟨⟨by simp [HeldSet], by decide⟩, by simp [latched, keyed, State.reset], rfl, by simp [ErrorSet], by simp [HeldSet]⟩
theorem witness_StepKeepsInvariants : invariantsHold (queued keyed [.command 0x0700000000#40]) = true ∧
    step (queued keyed [.command 0x0700000000#40]) =
      .next (respond 0x00000008#32 (queued keyed [.command 0x0700000000#40])) := ⟨by decide, rfl⟩
theorem witness_Reachable : Reachable (respond 0#32 (startWith [.command 0#40])) :=
  .next (.start [.command 0#40]) rfl
theorem witness_StepKeepsSchedule_stream : ScheduleFollowsKey (openSession .encrypt keyed) ∧
    step (openSession .encrypt keyed) = .next (openSession .encrypt keyed) :=
  ⟨fun _ => ⟨0, rfl, rfl, rfl⟩, rfl⟩
theorem witness_StepKeepsSchedule_any_phase :
    (ScheduleFollowsKey (openSession .decrypt keyed) ∧ GridsOnASchedule (openSession .decrypt keyed) ∧
      step (openSession .decrypt keyed) = .next (openSession .decrypt keyed)) ∧
    (ScheduleFollowsKey latched ∧ GridsOnASchedule latched ∧ step latched = .next latched) :=
  ⟨⟨fun _ => ⟨0, rfl, rfl, rfl⟩, .inl ⟨7#32, 0, rfl, rfl, rfl⟩, rfl⟩,
    fun h => absurd h (by decide), .inr ⟨rfl, rfl, rfl⟩, rfl⟩
theorem witness_LoadKeyResult : pending.outCnt ≠ 0 ∧ (keyed.outCnt = 0 ∧ keyed.phase = .idle) ∧
    (streaming.outCnt = 0 ∧ streaming.phase = .stream ∧ streaming.err = .noError) ∧
    (latched.outCnt = 0 ∧ latched.phase = .error) := by decide
theorem witness_StartResult : pending.outCnt ≠ 0 ∧ (keyed.outCnt = 0 ∧ keyed.phase = .idle ∧ keyed.keyv = true) ∧
    (State.reset.outCnt = 0 ∧ State.reset.phase = .idle ∧ State.reset.keyv = false ∧ State.reset.err = .noError) ∧
    (streaming.outCnt = 0 ∧ streaming.phase = .stream ∧ streaming.err = .noError) ∧
    (latched.outCnt = 0 ∧ latched.phase = .error) := by decide
theorem witness_PushByteResult : pending.outCnt ≠ 0 ∧
    ({ streaming with inCnt := 30 }.outCnt = 0 ∧ { streaming with inCnt := 30 }.phase = .stream ∧
      { streaming with inCnt := 30 }.inCnt.val < 31) ∧
    (almostFull.outCnt = 0 ∧ almostFull.phase = .stream ∧ almostFull.inCnt.val = 31) ∧
    (keyed.outCnt = 0 ∧ keyed.phase = .idle ∧ keyed.err = .noError) ∧
    (latched.outCnt = 0 ∧ latched.phase = .error) := by decide
theorem witness_PopByteResult : streaming.outCnt = 0 ∧ (pending.outCnt.val = 32 - 0) ∧
    ({ pending with outCnt := 1 }.outCnt.val = 32 - 31) := by decide
theorem witness_EndStreamResult : pending.outCnt ≠ 0 ∧
    (streaming.outCnt = 0 ∧ streaming.phase = .stream ∧ streaming.inCnt = 0) ∧
    (partialFrame.outCnt = 0 ∧ partialFrame.phase = .stream ∧ partialFrame.inCnt ≠ 0 ∧ partialFrame.err = .noError) ∧
    (keyed.outCnt = 0 ∧ keyed.phase = .idle ∧ keyed.err = .noError) ∧
    (latched.outCnt = 0 ∧ latched.phase = .error) := by decide
theorem witness_ReadGridResult : pending.outCnt ≠ 0 ∧ (streaming.outCnt = 0 ∧ streaming.phase ≠ .error) ∧
    (latched.outCnt = 0 ∧ latched.phase = .error) := by decide
theorem witness_ReservedResult : (Instr.reserved0C0F 3#2).isReserved = true ∧
    (pending.phase ≠ .error ∧ pending.err = .noError) ∧ latched.phase = .error := by decide
theorem witness_ErrorEntryChangesNothingElse : keyed.phase ≠ .error ∧ keyed.err = .noError ∧
    exec .endStream keyed = .next (errored .commandIllegal keyed) ∧ (errored .commandIllegal keyed).phase = .error :=
  ⟨by decide, rfl, rfl, rfl⟩
theorem witness_ErrorCauses : partialFrame.phase ≠ .error ∧ partialFrame.err = .noError ∧
    held .endStream partialFrame = false := by decide
theorem witness_ErrorStaysLatched : latched.phase = .error ∧ exec .readT latched = .next (answered 0#32 latched) ∧
    ¬ ErrorSet .readT ∧ Instr.readT ≠ .clear := ⟨rfl, rfl, by simp [ErrorSet], by decide⟩
theorem witness_ClearReturnsFromError : latched.phase = .error ∧ latched.keyv = true := by decide
theorem witness_PendingOutputIsProtected : (HeldSet .endStream ∧ pending.outCnt ≠ 0) ∧
    (exec .clear pending = .next (clearRule pending) ∧ (clearRule pending).outCnt < pending.outCnt) ∧
    (Instr.nop ≠ .clear ∧ exec .nop pending = .next (answered 0#32 pending)) :=
  ⟨⟨by simp [HeldSet], by decide⟩, ⟨rfl, by decide⟩, by decide, rfl⟩
theorem witness_PhaseMoves : exec .startEnc keyed = .next (openSession .encrypt keyed) ∧
    (openSession .encrypt keyed).phase ≠ keyed.phase := ⟨rfl, by decide⟩
theorem witness_OnlyTheirCommandsWriteThem : exec .startDec keyed = .next (openSession .decrypt keyed) ∧
    (∀ k, Instr.startDec ≠ .loadKey k) ∧ exec .popByte streaming = .next (answered 0#32 streaming) ∧
    Instr.popByte ≠ .startEnc ∧ Instr.popByte ≠ .startDec ∧ Instr.popByte ≠ .clear ∧ Instr.popByte ≠ .readT ∧
    Instr.popByte ≠ .readS ∧ (∀ b, Instr.popByte ≠ .pushByte b) ∧
    Instr.popByte ≠ .endStream ∧
    exec .nop streaming = .next (answered 0#32 streaming) ∧ Instr.nop ≠ .popByte ∧
    exec (.loadKey 1#32) streaming = .next (errored .commandIllegal streaming) ∧ Instr.loadKey 1#32 ≠ .endStream ∧
    exec (.pushByte 5#8) streaming = .next (pushByteRule 5#8 streaming) ∧ streaming.inCnt ≠ 31 := by
  refine ⟨rfl, by simp, rfl, by decide, by decide, by decide, by decide, by decide, by simp, by decide, rfl, by decide, rfl,
    by decide, rfl, by decide⟩
theorem witness_exec_next : exec (.loadKey 1#32) keyed = .next (answered 0#32 { keyed with key := 1#32, keyv := true }) ∧
    Instr.loadKey 1#32 ≠ .startEnc ∧ Instr.loadKey 1#32 ≠ .startDec ∧ Instr.loadKey 1#32 ≠ .readBlkcnt :=
  ⟨rfl, by decide, by decide, by decide⟩
theorem witness_StaleInputIsNeverRead : SameButStaleInput { streaming with inCnt := 1 }
    { streaming with inCnt := 1, inBuf := (Vector.replicate 32 0#8).set 5 9#8 } ∧
    exec .nop { streaming with inCnt := 1 } = .next (answered 0#32 { streaming with inCnt := 1 }) := by
  refine ⟨⟨rfl, fun k hk h1 => ?_⟩, rfl⟩
  have h0 : k = 0 := by
    have : k < 1 := h1
    omega
  subst h0
  rfl
theorem witness_GenerationLocality : ∀ r' c' : Fin 16, torusDist 0 0 r' c' ≤ 0 →
    cell Grid.ZERO r' c' = cell (setCell Grid.ZERO 8 8 true) r' c' := by decide +kernel
theorem witness_SeedPopulation : templateWf synT synS = true := test_templateWf_synthetic
theorem witness_IndicesReadDisjointCells : (3 : Fin 16).val = (3 * (1 : Fin 16).val) % 4 ∧
    (3 : Fin 16).val = (3 * (0 : Fin 16).val + 3) % 4 ∧ rowidxReads 0 4 = true ∧ colidxReads 3 0 = true ∧
    (∀ r c : Fin 16, rowidxReads r c = true ∨ colidxReads r c = true →
      cell Grid.ZERO r c = cell (setCell Grid.ZERO 0 1 true) r c) := by decide +kernel
theorem witness_DeadStreamShifts : (∀ j, rowidx Grid.ZERO j = 0) ∧ (∀ j, rowidx Grid.ONES j = 15) ∧
    (∀ j, colidx Grid.ZERO j = 0) ∧ (∀ j, colidx Grid.ONES j = 15) := by decide +kernel
theorem witness_EnginesUndoEachOther : ∃ (d s' d' : State) (c : Byte),
    almostFull.outCnt = 0 ∧ almostFull.phase = .stream ∧ almostFull.mode = .encrypt ∧ almostFull.inCnt = 31 ∧
      exec (.pushByte 0#8) almostFull = .next s' ∧
      d.outCnt = 0 ∧ d.phase = .stream ∧ d.mode = .decrypt ∧ d.inCnt = 31 ∧ d.gt = almostFull.gt ∧ d.gs = almostFull.gs ∧
      d.inBuf.set 31 c = s'.outBuf ∧ exec (.pushByte c) d = .next d' :=
  ⟨{ almostFull with mode := .decrypt, inBuf := (pushByteRule 0#8 almostFull).outBuf }, pushByteRule 0#8 almostFull, _,
    (pushByteRule 0#8 almostFull).outBuf[31], rfl, rfl, rfl, rfl, rfl, rfl, rfl, rfl, rfl, rfl, rfl,
    Vector.set_getElem_self _, rfl⟩
theorem witness_SessionOutput :
    invariantsHold keyed = true ∧ keyed.phase = .idle ∧ keyed.outCnt = 0 ∧
    invariantsHold (queued keyed (issue (sessionCommands .startEnc 1#32 [Vector.replicate 32 0#8]) ++ [.reset])) = true ∧
    (queued keyed (issue (sessionCommands .startDec 1#32 []) ++ [])).hostQueue
      = issue (sessionCommands .startDec 1#32 []) ++ [] := ⟨by decide, rfl, rfl, by decide, rfl⟩
theorem witness_RunsEndFinishedOrStuck : Reachable (startWith [.reset]) ∧ finished (startWith [.reset]) = false ∧
    stuck (startWith [.reset]) = false := ⟨.start _, rfl, rfl⟩
theorem witness_AssemblerRanges : (['R', 'E', 'A', 'D', '_', 'S'], Mnemonic.readS, Instr.readS) ∈ plainCommands ∧ assemble ⟨.pushByte, some 255⟩ = some (.pushByte 0xFF#8) ∧
    assembleLine ['N', 'O', 'P'] = some [.nop] ∧ Instr.nop ∈ [Instr.nop] := by decide +kernel
theorem witness_PseudoExpansion : (2 ^ 32 - 1 < 2 ^ 32) ∧ [0].length ≠ 32 ∧ [0].length % 32 ≠ 0 := by decide

end Sys2Proof.Tests
end

/-! Proofs of the scope's statements (00_scope.md). -/

namespace Sys2Proof.Proofs.Scope

open Sys2Proof.Machine Sys2Proof.Claims

/-- An empty queue leaves the host no next action (R377). -/
theorem nextAction_of_hostQueue_nil {s : State} (hq : s.hostQueue = []) : nextAction s = none := by
  rw [nextAction, hq, List.head?_nil]

/-- With no next action a step is a stutter: the engine has no step of its own (R3). -/
theorem step_of_nextAction_none {s : State} (ha : nextAction s = none) : step s = .next s := by
  simp only [step, ha]

/-- Settles O8: with an empty queue the host has no next action, and `step` then retains the state (R336). -/
theorem quietWithoutHostAction : Obligations.QuietWithoutHostAction := by
  intro s hq
  exact step_of_nextAction_none (nextAction_of_hostQueue_nil hq)

end Sys2Proof.Proofs.Scope

/-! What a command does, said once: the effects a command can have on the state, and which one it has, with the test that
chooses it (45_framer_pipeline.md rules R260 to R277). The test reads `PHASE`, `KEYV`, `IN_CNT` and `OUT_CNT` alone, so states
that agree on those four have the same effect applied to them. -/

namespace Sys2Proof.Proofs.Effects

open Sys2Proof.Machine Sys2Proof.Laws

/-- What an issued command does to the state, its tests being done. -/
inductive Effect where
  /-- held: no state change (R261) -/
  | stay
  /-- accepted with response 0, and nothing else (R260, R263, R269) -/
  | answer
  /-- an error (R323) -/
  | raise (code : ErrCode)
  /-- the key is loaded (R266) -/
  | loadKey (k : Word)
  /-- a session is opened (R265) -/
  | start (m : Mode)
  /-- a byte short of a full frame is stored (R268) -/
  | store (b : Byte)
  /-- the byte that fills the frame is stored, and the block step runs (R268, R275) -/
  | block (b : Byte)
  /-- an output byte is returned (R269) -/
  | pop
  /-- the session ends (R270) -/
  | close
  /-- `STATUS` is returned (R271) -/
  | status
  /-- the output frame is filled with `pack(GT)` (R272) -/
  | showT
  /-- the output frame is filled with `pack(GS)` (R273) -/
  | showS
  /-- `BLKCNT` is returned (R274) -/
  | count
  /-- the session is cancelled (R276) -/
  | clear

/-- The state an effect leaves. -/
def Effect.apply : Effect → State → State
  | .stay, s => s
  | .answer, s => respond 0#32 s
  | .raise code, s => raiseError code s
  | .loadKey k, s => respond 0#32 { s with key := k, keyv := true }
  | .start m, s => openSession m s
  | .store b, s => respond 0#32 { storeInput b s with inCnt := s.inCnt + 1 }
  | .block b, s => respond 0#32 (blockStep (storeInput b s))
  | .pop, s => respond (popResponse (nextOutput s)) { s with outCnt := s.outCnt - 1 }
  | .close, s => respond 0#32 { s with phase := .idle }
  | .status, s => respond (statusWord s) s
  | .showT, s => fillOutput s.gt s
  | .showS, s => fillOutput s.gs s
  | .count, s => respond s.blkcnt s
  | .clear, s => respond 0#32 (clearSession s)

section

variable (p : Phase) (v : Bool) (n : Fin 32) (o : Fin 33)

/-- The effect of a command that is neither held nor ignored (R262), one constructor per outcome of a rule, where the
rules' tests find `PHASE` = `p`, `KEYV` = `v`, `IN_CNT` = `n` and `OUT_CNT` = `o`. -/
inductive Applies : Instr → Effect → Prop where
  | nop : Applies .nop .answer
  | reserved {i} (hr : i.isReserved = true) (hp : p ≠ .error) : Applies i (.raise .commandIllegal)
  | loadKey {k} (hp : p = .idle) : Applies (.loadKey k) (.loadKey k)
  | loadKeyInSession {k} (hp : p = .stream) : Applies (.loadKey k) (.raise .commandIllegal)
  | startEnc (hp : p = .idle) (hk : v = true) : Applies .startEnc (.start .encrypt)
  | startDec (hp : p = .idle) (hk : v = true) : Applies .startDec (.start .decrypt)
  | startEncNoKey (hp : p = .idle) (hk : v = false) : Applies .startEnc (.raise .keyMissing)
  | startEncInSession (hp : p = .stream) : Applies .startEnc (.raise .commandIllegal)
  | startDecNoKey (hp : p = .idle) (hk : v = false) : Applies .startDec (.raise .keyMissing)
  | startDecInSession (hp : p = .stream) : Applies .startDec (.raise .commandIllegal)
  | store {b} (hp : p = .stream) (hn : n ≠ 31) : Applies (.pushByte b) (.store b)
  | block {b} (hp : p = .stream) (hn : n = 31) : Applies (.pushByte b) (.block b)
  | pushByteIdle {b} (hp : p = .idle) : Applies (.pushByte b) (.raise .commandIllegal)
  | popEmpty (hn : o = 0) : Applies .popByte .answer
  | pop (hn : o ≠ 0) : Applies .popByte .pop
  | close (hp : p = .stream) (hn : n = 0) : Applies .endStream .close
  | partialFrame (hp : p = .stream) (hn : n ≠ 0) : Applies .endStream (.raise .inputLengthInvalid)
  | endStreamIdle (hp : p = .idle) : Applies .endStream (.raise .commandIllegal)
  | readStatus : Applies .readStatus .status
  | readT : Applies .readT .showT
  | readS : Applies .readS .showS
  | readBlkcnt : Applies .readBlkcnt .count
  | clear : Applies .clear .clear

end

/-- The effect of a command that is neither held nor ignored, in a state. -/
abbrev AppliesIn (i : Instr) (s : State) (e : Effect) : Prop := Applies s.phase s.keyv s.inCnt s.outCnt i e

/-- The effect of an issued command (R260). -/
inductive Does : Instr → State → Effect → Prop where
  | held {i s} (hh : held i s = true) : Does i s .stay
  | ignored {i s} (hh : held i s = false) (hi : ignored i s = true) : Does i s .answer
  | applied {i s e} (hh : held i s = false) (hi : ignored i s = false) (ha : AppliesIn i s e) : Does i s e

/-- Outside phase `ERROR` a reserved opcode is an error (R264). -/
theorem reservedRule_of_phase_ne_error {s : State} (hp : s.phase ≠ .error) :
    reservedRule s = raiseError .commandIllegal s := by
  cases hs : s.phase with
  | idle | stream => simp only [reservedRule, hs]
  | error => exact absurd hs hp

theorem ruleOf_of_isReserved {i : Instr} (hr : i.isReserved = true) : ruleOf i = reservedRule := by
  cases i with
  | reserved0C0F _ | reserved101F _ | reserved203F _ | reserved407F _ | reserved80FF _ => rfl
  | _ => cases hr

/-- The rule of a command has the effect `Applies` says. -/
theorem AppliesIn.ruleOf_eq {i : Instr} {s : State} {e : Effect} (h : AppliesIn i s e) : ruleOf i s = e.apply s := by
  cases h with
  | reserved hr hp => rw [ruleOf_of_isReserved hr, reservedRule_of_phase_ne_error hp, Effect.apply]
  | loadKey hp | loadKeyInSession hp => simp only [ruleOf, loadKeyRule, hp, Effect.apply]
  | startEncInSession hp | startDecInSession hp => simp only [ruleOf, startRule, hp, Effect.apply]
  | startEnc hp hk | startDec hp hk => simp only [ruleOf, startRule, hp, hk, if_true, Effect.apply]
  | startEncNoKey hp hk | startDecNoKey hp hk =>
    simp only [ruleOf, startRule, hp, hk, Bool.false_eq_true, if_false, Effect.apply]
  | store hp hn | block hp hn => simp only [ruleOf, pushByteRule, hp, hn, if_true, if_false, Effect.apply]
  | pushByteIdle hp => simp only [ruleOf, pushByteRule, hp, Effect.apply]
  | popEmpty hn | pop hn => simp only [ruleOf, popByteRule, hn, if_true, if_false, Effect.apply]
  | close hp hn => simp only [ruleOf, endStreamRule, hp, hn, ne_eq, not_true, if_false, Effect.apply]
  | partialFrame hp hn => simp only [ruleOf, endStreamRule, hp, ne_eq, hn, not_false_eq_true, if_true, Effect.apply]
  | endStreamIdle hp => simp only [ruleOf, endStreamRule, hp, Effect.apply]
  | nop | readStatus | readT | readS | readBlkcnt | clear => rfl

/-- A command outside `ERROR_SET` that is not ignored does not find phase `ERROR` (R325). -/
theorem phase_ne_error_of_not_ignored {i : Instr} {s : State} (hi : ignored i s = false) (hset : inErrorSet i = false) :
    s.phase ≠ .error :=
  fun hp => Bool.false_ne_true (hi.symm.trans (ignored_eq_true.mpr ⟨hp, hset⟩))

/-- Every command that is not ignored has an effect. -/
theorem exists_applies {i : Instr} {s : State} (hi : ignored i s = false) : ∃ e, AppliesIn i s e := by
  cases i with
  | nop => exact ⟨_, .nop⟩
  | readStatus => exact ⟨_, .readStatus⟩
  | readT => exact ⟨_, .readT⟩
  | readS => exact ⟨_, .readS⟩
  | readBlkcnt => exact ⟨_, .readBlkcnt⟩
  | clear => exact ⟨_, .clear⟩
  | popByte =>
    by_cases hn : s.outCnt = 0
    · exact ⟨_, .popEmpty hn⟩
    · exact ⟨_, .pop hn⟩
  | loadKey k =>
    cases hp : s.phase with
    | idle => exact ⟨_, .loadKey hp⟩
    | stream => exact ⟨_, .loadKeyInSession hp⟩
    | error => exact absurd hp (phase_ne_error_of_not_ignored hi rfl)
  | startEnc =>
    cases hp : s.phase with
    | idle =>
      cases hk : s.keyv with
      | true => exact ⟨_, .startEnc hp hk⟩
      | false => exact ⟨_, .startEncNoKey hp hk⟩
    | stream => exact ⟨_, .startEncInSession hp⟩
    | error => exact absurd hp (phase_ne_error_of_not_ignored hi rfl)
  | startDec =>
    cases hp : s.phase with
    | idle =>
      cases hk : s.keyv with
      | true => exact ⟨_, .startDec hp hk⟩
      | false => exact ⟨_, .startDecNoKey hp hk⟩
    | stream => exact ⟨_, .startDecInSession hp⟩
    | error => exact absurd hp (phase_ne_error_of_not_ignored hi rfl)
  | pushByte b =>
    cases hp : s.phase with
    | idle => exact ⟨_, .pushByteIdle hp⟩
    | stream =>
      by_cases hn : s.inCnt = 31
      · exact ⟨_, .block hp hn⟩
      · exact ⟨_, .store hp hn⟩
    | error => exact absurd hp (phase_ne_error_of_not_ignored hi rfl)
  | endStream =>
    cases hp : s.phase with
    | idle => exact ⟨_, .endStreamIdle hp⟩
    | stream =>
      by_cases hn : s.inCnt = 0
      · exact ⟨_, .close hp hn⟩
      · exact ⟨_, .partialFrame hp hn⟩
    | error => exact absurd hp (phase_ne_error_of_not_ignored hi rfl)
  | reserved0C0F _ | reserved101F _ | reserved203F _ | reserved407F _ | reserved80FF _ =>
    exact ⟨_, .reserved rfl (phase_ne_error_of_not_ignored hi rfl)⟩

/-- Every command has an effect. -/
theorem exists_does (i : Instr) (s : State) : ∃ e, Does i s e := by
  cases hh : held i s with
  | true => exact ⟨_, .held hh⟩
  | false =>
    cases hi : ignored i s with
    | true => exact ⟨_, .ignored hh hi⟩
    | false =>
      obtain ⟨e, ha⟩ := exists_applies hi
      exact ⟨e, .applied hh hi ha⟩

/-- A command leaves what its effect leaves. -/
theorem Does.exec_eq {i : Instr} {s : State} {e : Effect} (h : Does i s e) : exec i s = .next (e.apply s) := by
  rw [exec_eq_command]
  cases h with
  | held hh => exact command_of_held _ hh
  | ignored hh hi => exact command_of_ignored _ hh hi
  | applied hh hi ha => rw [command_of_applied _ hh hi, AppliesIn.ruleOf_eq ha]

/-- Everything a command can do. -/
theorem exec_effect {i : Instr} {s t : State} (h : exec i s = .next t) : ∃ e, Does i s e ∧ t = e.apply s := by
  obtain ⟨e, he⟩ := exists_does i s
  exact ⟨e, he, Host.Outcome.next.inj (h.symm.trans he.exec_eq)⟩

/-- The two states agree on the elements that the tests of a command read (R260 to R277). -/
structure SameTests (s s' : State) : Prop where
  phase : s'.phase = s.phase
  keyv : s'.keyv = s.keyv
  inCnt : s'.inCnt = s.inCnt
  outCnt : s'.outCnt = s.outCnt

theorem SameTests.appliesIn {i : Instr} {s s' : State} {e : Effect} (hs : SameTests s s') (h : AppliesIn i s e) :
    AppliesIn i s' e := by
  rwa [AppliesIn, hs.phase, hs.keyv, hs.inCnt, hs.outCnt]

theorem SameTests.does {i : Instr} {s s' : State} {e : Effect} (hs : SameTests s s') (h : Does i s e) :
    Does i s' e := by
  have hheld : held i s' = held i s := by rw [held, held, hs.outCnt]
  have hign : ignored i s' = ignored i s := by rw [ignored, ignored, hs.phase]
  cases h with
  | held hh => exact .held (hheld.trans hh)
  | ignored hh hi => exact .ignored (hheld.trans hh) (hign.trans hi)
  | applied hh hi ha => exact .applied (hheld.trans hh) (hign.trans hi) (hs.appliesIn ha)

/-- States that agree on what the tests read have the same effect applied to them. -/
theorem exec_effect_of_sameTests {i : Instr} {s s' t : State} (h : exec i s = .next t) (hs : SameTests s s') :
    ∃ e, Does i s e ∧ t = e.apply s ∧ exec i s' = .next (e.apply s') := by
  obtain ⟨e, he, ht⟩ := exec_effect h
  exact ⟨e, he, ht, (hs.does he).exec_eq⟩

/-- Only the start commands open a session (R265). -/
theorem Does.eq_start {i : Instr} {s : State} {m : Mode} (h : Does i s (.start m)) : i = .startEnc ∨ i = .startDec := by
  obtain _ | _ | ⟨_, _, ha⟩ := h
  cases ha with
  | startEnc => exact .inl rfl
  | startDec => exact .inr rfl

/-- Only `READ_BLKCNT` returns `BLKCNT` (R274). -/
theorem Does.eq_readBlkcnt {i : Instr} {s : State} (h : Does i s .count) : i = .readBlkcnt := by
  obtain _ | _ | ⟨_, _, ha⟩ := h
  cases ha
  rfl

/-- A byte is stored short of a full frame only (R268). -/
theorem Does.inCnt_of_store {i : Instr} {s : State} {b : Byte} (h : Does i s (.store b)) : s.inCnt ≠ 31 := by
  obtain _ | _ | ⟨_, _, ha⟩ := h
  cases ha with
  | store _ hn => exact hn

/-- The block step runs on a frame that the pushed byte fills (R268). -/
theorem Does.inCnt_of_block {i : Instr} {s : State} {b : Byte} (h : Does i s (.block b)) : s.inCnt = 31 := by
  obtain _ | _ | ⟨_, _, ha⟩ := h
  cases ha with
  | block _ hn => exact hn

end Sys2Proof.Proofs.Effects

/-! Proofs of the statements about the state elements (10_state.md): the invariants of R36, the frame of R37, and what no
command's result depends on (R22, R28, R29, R31). -/

namespace Sys2Proof.Proofs.StateElements

open Sys2Proof.Machine Sys2Proof.Laws Sys2Proof.Claims Sys2Proof.Proofs.Effects

/-! The invariants (R36) -/

/-- The invariants of R36 read four elements alone. -/
theorem invariantsHold_of_eq {s t : State} (hs : invariantsHold s = true) (hphase : t.phase = s.phase)
    (herr : t.err = s.err) (hkeyv : t.keyv = s.keyv) (hin : t.inCnt = s.inCnt) : invariantsHold t = true := by
  rwa [invariantsHold_iff, hphase, herr, hkeyv, hin, ← invariantsHold_iff]

/-- R36(c): outside phase `ERROR` no error is latched. -/
theorem err_eq_noError {s : State} (hs : invariantsHold s = true) (hp : s.phase ≠ .error) : s.err = .noError := by
  obtain ⟨hc, -⟩ := invariantsHold_iff.mp hs
  exact not_not.mp (mt hc.mpr hp)

/-- An engine with no error latched meets the invariants when `KEYV` and `IN_CNT` fit its phase (R36(e) to (g)). -/
theorem invariantsHold_of_noError {s : State} (herr : s.err = .noError) (hp : s.phase ≠ .error)
    (hkey : s.phase = .stream → s.keyv = true) (hin : s.phase = .idle → s.inCnt = 0) : invariantsHold s = true :=
  invariantsHold_iff.mpr ⟨⟨fun h => absurd h hp, fun h => absurd herr h⟩, .inl herr, hkey, hin⟩

/-- In phase `ERROR` the invariants are R36(c) and R36(d): one of the engine's three errors is latched. -/
theorem invariantsHold_of_error {s : State} (hp : s.phase = .error)
    (herr : s.err = .inputLengthInvalid ∨ s.err = .keyMissing ∨ s.err = .commandIllegal) : invariantsHold s = true := by
  rw [invariantsHold_iff, hp]
  refine ⟨⟨fun _ hno => ?_, fun _ => rfl⟩, .inr herr, nofun, nofun⟩
  rw [hno] at herr
  exact absurd herr (by decide)

/-- With no error latched before, the error raised is the one latched (R323). -/
theorem invariantsHold_raiseError {s : State} {code : ErrCode} (hs : invariantsHold s = true) (hp : s.phase ≠ .error)
    (hcode : code = .inputLengthInvalid ∨ code = .keyMissing ∨ code = .commandIllegal) :
    invariantsHold (raiseError code s) = true := by
  apply invariantsHold_of_error (raiseError_phase code s)
  rwa [raiseError_err, if_pos (err_eq_noError hs hp)]

/-- Every effect a command can have keeps the invariants. -/
theorem invariantsHold_apply {i : Instr} {s : State} {e : Effect} (h : Does i s e) (hs : invariantsHold s = true) :
    invariantsHold (e.apply s) = true := by
  obtain _ | _ | ⟨-, -, ha⟩ := h
  · exact hs
  · exact invariantsHold_of_eq hs rfl rfl rfl rfl
  cases ha with
  | nop | popEmpty | pop | readStatus | readT | readS | readBlkcnt => exact invariantsHold_of_eq hs rfl rfl rfl rfl
  | reserved _ hp => exact invariantsHold_raiseError hs hp (by decide)
  | loadKeyInSession hp | startEncNoKey hp | startEncInSession hp | startDecNoKey hp | startDecInSession hp
  | pushByteIdle hp | partialFrame hp | endStreamIdle hp =>
    exact invariantsHold_raiseError hs (by rw [hp]; decide) (by decide)
  | clear => exact invariantsHold_of_noError rfl nofun nofun fun _ => rfl
  | loadKey hp =>
    have hne : s.phase ≠ .error := by rw [hp]; decide
    have herr : s.err = .noError := err_eq_noError hs hne
    obtain ⟨-, -, -, hg⟩ := invariantsHold_iff.mp hs
    exact invariantsHold_of_noError herr hne (fun _ => rfl) hg
  | startEnc hp hk | startDec hp hk =>
    have herr : s.err = .noError := err_eq_noError hs (by rw [hp]; decide)
    exact invariantsHold_of_noError herr nofun (fun _ => hk) nofun
  | store hp | block hp =>
    have hne : s.phase ≠ .error := by rw [hp]; decide
    have herr : s.err = .noError := err_eq_noError hs hne
    obtain ⟨-, -, hkey, -⟩ := invariantsHold_iff.mp hs
    exact invariantsHold_of_noError herr hne hkey fun hidle => nomatch hp.symm.trans hidle
  | close hp hn =>
    have herr : s.err = .noError := err_eq_noError hs (by rw [hp]; decide)
    exact invariantsHold_of_noError herr nofun nofun fun _ => hn

/-- Settles O12: a stutter, a reset and every effect of a command keep the invariants. -/
theorem stepKeepsInvariants : Obligations.StepKeepsInvariants := by
  intro s t hs h
  obtain ⟨-, rfl⟩ | ⟨-, rfl⟩ | ⟨cmd, -, -, hexec⟩ := step_cases h
  · exact hs
  · exact invariantsHold_of_noError rfl nofun nofun fun _ => rfl
  · obtain ⟨e, he, rfl⟩ := exec_effect hexec
    exact invariantsHold_apply he hs

/-- Settles O11: after reset the phase is `IDLE` and grids and counter are cleared. -/
theorem resetMeetsInvariants : Obligations.ResetMeetsInvariants := fun _ =>
  ⟨invariantsHold_of_noError rfl nofun nofun fun _ => rfl, nofun, .inr ⟨rfl, rfl, rfl⟩⟩

/-- R36 in every state a run from reset passes through. -/
theorem invariantsHold_of_reachable {s : State} (h : Reachable s) : invariantsHold s = true := by
  induction h with
  | start program =>
    obtain ⟨hinv, -⟩ := resetMeetsInvariants program
    exact hinv
  | next _ hstep ih => exact stepKeepsInvariants _ _ ih hstep

/-- The codes of the errors the engine latches (R36(d), R320). -/
theorem errCode_of_latched {c : ErrCode}
    (h : c = .noError ∨ c = .inputLengthInvalid ∨ c = .keyMissing ∨ c = .commandIllegal) :
    errCode c = 0#3 ∨ errCode c = 1#3 ∨ errCode c = 3#3 ∨ errCode c = 5#3 := by
  obtain rfl | rfl | rfl | rfl := h <;> decide

/-- Settles O13: the clauses that the fields' types leave open follow from `invariantsHold`, which reset meets and every
step keeps. -/
theorem reachableStatesMeetInvariants : Obligations.ReachableStatesMeetInvariants := by
  intro s h
  obtain ⟨hc, hd, he, hg⟩ := invariantsHold_iff.mp (invariantsHold_of_reachable h)
  refine ⟨?_, by omega, by omega, hc, errCode_of_latched hd, he, fun hne => ?_, hg⟩
  · cases s.phase <;> decide
  · cases hp : s.phase with
    | idle => exact absurd (hg hp) hne
    | stream => exact .inl rfl
    | error => exact .inr rfl

/-- A step gives a next state, or faults where an invariant is broken (U9). -/
theorem step_stops (s : State) :
    (∃ t, step s = .next t) ∨ (step s = .fault .invariantViolated ∧ invariantsHold s = false) := by
  unfold step
  split
  · exact .inl ⟨_, rfl⟩
  · exact .inl ⟨_, rfl⟩
  · rename_i cmd _
    split
    · obtain ⟨e, he⟩ := exists_does (decode cmd) s
      exact .inl ⟨_, he.exec_eq⟩
    · rename_i hinv
      exact .inr ⟨rfl, (Bool.not_eq_true _).mp hinv⟩

/-- Settles O9: the invariant test comes before the dispatch, and the dispatch gives every command an effect. -/
theorem brokenInvariantsFault : Obligations.BrokenInvariantsFault := by
  refine ⟨fun s cmd rest hinv hq => ?_, fun s r h => ?_, fun s r h => ?_⟩
  · have ha : nextAction s = some (.command cmd) := by rw [nextAction, hq, List.head?_cons]
    simp only [step, ha, hinv, Bool.false_eq_true, if_false]
  · obtain ⟨-, hinv⟩ := (step_stops s).resolve_left fun ⟨t, ht⟩ => nomatch ht.symm.trans h
    exact hinv
  · obtain ⟨t, ht⟩ | ⟨hf, -⟩ := step_stops s
    · exact nomatch ht.symm.trans h
    · exact nomatch hf.symm.trans h

/-! The frame of every command (R37) -/

section

variable {i : Instr} {s : State} {e : Effect}

theorem apply_key (h : Does i s e) (hload : ∀ k, i ≠ .loadKey k) :
    (e.apply s).key = s.key ∧ (e.apply s).keyv = s.keyv := by
  obtain _ | _ | ⟨-, -, ha⟩ := h
  · exact ⟨rfl, rfl⟩
  · exact ⟨rfl, rfl⟩
  cases ha with
  | loadKey => exact absurd rfl (hload _)
  | _ => exact ⟨rfl, rfl⟩

theorem raiseError_err_ne_noError {code : ErrCode} (hcode : code ≠ .noError) : (raiseError code s).err ≠ .noError := by
  by_cases herr : s.err = .noError
  · rwa [raiseError_err, if_pos herr]
  · rwa [raiseError_err, if_neg herr]

theorem apply_phase (h : Does i s e) (henc : i ≠ .startEnc) (hdec : i ≠ .startDec) (hend : i ≠ .endStream)
    (hclear : i ≠ .clear) :
    (e.apply s).phase = s.phase ∨ (s.phase ≠ .error ∧ (e.apply s).phase = .error ∧ (e.apply s).err ≠ .noError) := by
  obtain _ | _ | ⟨-, -, ha⟩ := h
  · exact .inl rfl
  · exact .inl rfl
  cases ha with
  | reserved _ hp => exact .inr ⟨hp, rfl, raiseError_err_ne_noError (by decide)⟩
  | loadKeyInSession hp | pushByteIdle hp =>
    exact .inr ⟨by rw [hp]; decide, rfl, raiseError_err_ne_noError (by decide)⟩
  | startEnc | startEncNoKey | startEncInSession => exact absurd rfl henc
  | startDec | startDecNoKey | startDecInSession => exact absurd rfl hdec
  | close | partialFrame | endStreamIdle => exact absurd rfl hend
  | clear => exact absurd rfl hclear
  | _ => exact .inl rfl

theorem apply_mode (h : Does i s e) (henc : i ≠ .startEnc) (hdec : i ≠ .startDec) (hclear : i ≠ .clear) :
    (e.apply s).mode = s.mode := by
  obtain _ | _ | ⟨-, -, ha⟩ := h
  · rfl
  · rfl
  cases ha with
  | startEnc => exact absurd rfl henc
  | startDec => exact absurd rfl hdec
  | clear => exact absurd rfl hclear
  | _ => rfl

/-- A latched error stays latched (R26). -/
theorem raiseError_err_cases (code : ErrCode) (s : State) :
    (raiseError code s).err = s.err ∨ (s.err = .noError ∧ (raiseError code s).phase = .error) := by
  by_cases herr : s.err = .noError
  · exact .inr ⟨herr, rfl⟩
  · exact .inl (if_neg herr)

theorem apply_err (h : Does i s e) (hclear : i ≠ .clear) :
    (e.apply s).err = s.err ∨ (s.err = .noError ∧ (e.apply s).phase = .error) := by
  obtain _ | _ | ⟨-, -, ha⟩ := h
  · exact .inl rfl
  · exact .inl rfl
  cases ha with
  | reserved | loadKeyInSession | startEncNoKey | startEncInSession | startDecNoKey | startDecInSession | pushByteIdle
  | partialFrame | endStreamIdle => exact raiseError_err_cases _ s
  | clear => exact absurd rfl hclear
  | _ => exact .inl rfl

theorem apply_grids_input_blkcnt (h : Does i s e) (henc : i ≠ .startEnc) (hdec : i ≠ .startDec) (hclear : i ≠ .clear)
    (hpush : ∀ b, i ≠ .pushByte b) :
    (e.apply s).gt = s.gt ∧ (e.apply s).gs = s.gs ∧ (e.apply s).inBuf = s.inBuf ∧ (e.apply s).inCnt = s.inCnt ∧
      (e.apply s).blkcnt = s.blkcnt := by
  obtain _ | _ | ⟨-, -, ha⟩ := h
  · exact ⟨rfl, rfl, rfl, rfl, rfl⟩
  · exact ⟨rfl, rfl, rfl, rfl, rfl⟩
  cases ha with
  | startEnc => exact absurd rfl henc
  | startDec => exact absurd rfl hdec
  | clear => exact absurd rfl hclear
  | store | block => exact absurd rfl (hpush _)
  | _ => exact ⟨rfl, rfl, rfl, rfl, rfl⟩

theorem apply_pushByte_of_short_frame {b : Byte} (h : Does (.pushByte b) s e) (hn : s.inCnt ≠ 31) :
    (e.apply s).gt = s.gt ∧ (e.apply s).gs = s.gs ∧ (e.apply s).blkcnt = s.blkcnt ∧ (e.apply s).outBuf = s.outBuf ∧
      (e.apply s).outCnt = s.outCnt := by
  obtain _ | _ | ⟨-, -, ha⟩ := h
  · exact ⟨rfl, rfl, rfl, rfl, rfl⟩
  · exact ⟨rfl, rfl, rfl, rfl, rfl⟩
  cases ha with
  | block _ hfull => exact absurd hfull hn
  | _ => exact ⟨rfl, rfl, rfl, rfl, rfl⟩

theorem apply_inBuf_of_start (h : Does i s e) (hi : i = .startEnc ∨ i = .startDec) : (e.apply s).inBuf = s.inBuf := by
  obtain _ | _ | ⟨-, -, ha⟩ := h
  · rfl
  · rfl
  obtain rfl | rfl := hi
  · cases ha <;> rfl
  · cases ha <;> rfl

theorem apply_outBuf (h : Does i s e) (hpush : ∀ b, i ≠ .pushByte b) (hT : i ≠ .readT) (hS : i ≠ .readS)
    (hclear : i ≠ .clear) : (e.apply s).outBuf = s.outBuf := by
  obtain _ | _ | ⟨-, -, ha⟩ := h
  · rfl
  · rfl
  cases ha with
  | block => exact absurd rfl (hpush _)
  | readT => exact absurd rfl hT
  | readS => exact absurd rfl hS
  | clear => exact absurd rfl hclear
  | _ => rfl

theorem apply_outCnt (h : Does i s e) (hpush : ∀ b, i ≠ .pushByte b) (hT : i ≠ .readT) (hS : i ≠ .readS)
    (hclear : i ≠ .clear) (hpop : i ≠ .popByte) : (e.apply s).outCnt = s.outCnt := by
  obtain _ | _ | ⟨-, -, ha⟩ := h
  · rfl
  · rfl
  cases ha with
  | block => exact absurd rfl (hpush _)
  | readT => exact absurd rfl hT
  | readS => exact absurd rfl hS
  | clear => exact absurd rfl hclear
  | pop => exact absurd rfl hpop
  | _ => rfl

end

/-- Settles O34: one frame lemma per element, each over the effects a command can have. -/
theorem onlyTheirCommandsWriteThem : Obligations.OnlyTheirCommandsWriteThem := by
  intro i s t h
  obtain ⟨e, he, rfl⟩ := exec_effect h
  refine ⟨apply_key he, apply_phase he, apply_mode he, apply_err he, apply_grids_input_blkcnt he, ?_, apply_inBuf_of_start he,
    apply_outBuf he, apply_outCnt he⟩
  rintro b rfl
  exact apply_pushByte_of_short_frame he

/-! What no result depends on (R22, R28, R29, R31) -/

/-- No effect's response, and no `STATUS` it leaves, depends on `KEY` (R22). -/
theorem apply_observed_of_key (e : Effect) (s : State) (k : Word) :
    (e.apply { s with key := k }).responses = (e.apply s).responses ∧
      statusWord (e.apply { s with key := k }) = statusWord (e.apply s) := by
  cases e <;> exact ⟨rfl, rfl⟩

/-- Only the opening of a session reads `KEY` (R22). -/
theorem apply_of_key {e : Effect} (s : State) (k : Word) (hstart : ∀ m, e ≠ .start m) :
    e.apply { s with key := k } = { e.apply s with key := (e.apply { s with key := k }).key } := by
  cases e with
  | start m => exact absurd rfl (hstart m)
  | _ => rfl

/-- Settles O35: states that differ in `KEY` have the same effect applied to them, and no effect but the opening of a
session reads it. -/
theorem keyIsNotReadable : Obligations.KeyIsNotReadable := by
  intro i s t k h
  obtain ⟨e, he, rfl, hexec⟩ := exec_effect_of_sameTests (s' := { s with key := k }) h ⟨rfl, rfl, rfl, rfl⟩
  obtain ⟨hresp, hstatus⟩ := apply_observed_of_key e s k
  refine ⟨_, hexec, hresp, hstatus, fun henc hdec => apply_of_key s k ?_⟩
  rintro m rfl
  exact he.eq_start.elim henc hdec

/-- No effect's `GT` depends on `GS` (R168). -/
theorem apply_gt_of_gs (e : Effect) (s : State) (g : Grid) : (e.apply { s with gs := g }).gt = (e.apply s).gt := by
  cases e with
  | block b => simp only [Effect.apply, respond_gt, blockStep_gt, storeInput_gt]
  | _ => rfl

/-- No effect's `GS` depends on `GT` (R168). -/
theorem apply_gs_of_gt (e : Effect) (s : State) (g : Grid) : (e.apply { s with gt := g }).gs = (e.apply s).gs := by
  cases e with
  | block b => simp only [Effect.apply, respond_gs, blockStep_gs, storeInput_gs]
  | _ => rfl

/-- Settles O36: states that differ in one grid have the same effect applied to them, and each effect writes a grid from
that grid or from `KEY`. -/
theorem streamsAreIndependent : Obligations.StreamsAreIndependent := by
  intro i s t g h
  constructor
  · obtain ⟨e, -, rfl, hexec⟩ := exec_effect_of_sameTests (s' := { s with gs := g }) h ⟨rfl, rfl, rfl, rfl⟩
    exact ⟨_, hexec, apply_gt_of_gs e s g⟩
  · obtain ⟨e, -, rfl, hexec⟩ := exec_effect_of_sameTests (s' := { s with gt := g }) h ⟨rfl, rfl, rfl, rfl⟩
    exact ⟨_, hexec, apply_gs_of_gt e s g⟩

/-- `BLKCNT` reaches no element but itself, and the responses (R31). -/
theorem apply_of_blkcnt (e : Effect) (s : State) (n : Word) :
    e.apply { s with blkcnt := n } =
      { e.apply s with
        blkcnt := (e.apply { s with blkcnt := n }).blkcnt
        responses := (e.apply { s with blkcnt := n }).responses } := by
  cases e <;> rfl

/-- Only the response of `READ_BLKCNT` depends on `BLKCNT` (R31). -/
theorem apply_responses_of_blkcnt {e : Effect} (s : State) (n : Word) (hcount : e ≠ .count) :
    (e.apply { s with blkcnt := n }).responses = (e.apply s).responses := by
  cases e with
  | count => exact absurd rfl hcount
  | _ => rfl

/-- Settles O37: states that differ in `BLKCNT` have the same effect applied to them, and only `READ_BLKCNT` has the effect
that returns it. -/
theorem blockCountIsInformational : Obligations.BlockCountIsInformational := by
  intro i s t n h
  obtain ⟨e, he, rfl, hexec⟩ := exec_effect_of_sameTests (s' := { s with blkcnt := n }) h ⟨rfl, rfl, rfl, rfl⟩
  refine ⟨_, hexec, apply_of_blkcnt e s n, fun hi => apply_responses_of_blkcnt s n ?_⟩
  rintro rfl
  exact hi he.eq_readBlkcnt

/-- The frames agree on the bytes before index `n`. -/
def AgreeBelow (n : Nat) (b b' : Frame) : Prop := ∀ (k : Nat) (_ : k < 32), k < n → b[k] = b'[k]

/-- `SameButStaleInput` as one update: the second state is the first with another `IN_BUF` that has the same fresh bytes. -/
theorem exists_inBuf_of_sameButStaleInput {s s' : State} (h : SameButStaleInput s s') :
    ∃ b, s' = { s with inBuf := b } ∧ AgreeBelow s.inCnt.val s.inBuf b :=
  ⟨s'.inBuf, h.1.symm, h.2⟩

/-- Storing one more byte at index `n` makes agreement below `n` agreement below `n + 1`. -/
theorem AgreeBelow.set {n : Nat} {b b' : Frame} (h : AgreeBelow n b b') (hn : n < 32) (x : Byte) :
    AgreeBelow (n + 1) (b.set n x) (b'.set n x) := by
  intro k hk hlt
  by_cases hkn : n = k
  · subst hkn
    rw [Vector.getElem_set_self, Vector.getElem_set_self]
  · rw [Vector.getElem_set_ne _ _ hkn, Vector.getElem_set_ne _ _ hkn]
    exact h k hk (by omega)

/-- Agreement below 32 is equality. -/
theorem AgreeBelow.eq {b b' : Frame} (h : AgreeBelow 32 b b') : b = b' :=
  Vector.ext fun k hk => h k hk hk

/-- A frame one byte short is filled by a push, so the block step reads no stale byte (R268). -/
theorem storeInput_eq_of_agreeBelow {s : State} {b : Frame} (hfull : s.inCnt = 31)
    (hb : AgreeBelow s.inCnt.val s.inBuf b) (x : Byte) : storeInput x { s with inBuf := b } = storeInput x s := by
  have hset : s.inBuf.set s.inCnt.val x = b.set s.inCnt.val x := by
    apply AgreeBelow.eq
    have hstep := hb.set s.inCnt.isLt x
    rwa [show s.inCnt.val + 1 = 32 by rw [hfull]; rfl] at hstep
  rw [storeInput, storeInput, hset]

/-- The count after a byte is stored short of a full frame. -/
theorem val_succ_of_ne_last {n : Fin 32} (hn : n ≠ 31) : (n + 1).val = n.val + 1 :=
  Fin.val_add_one_of_lt (Fin.lt_last_iff_ne_last.mpr hn)

/-- No effect a command can have reads a stale byte of `IN_BUF` (R29). -/
theorem apply_sameButStaleInput {i : Instr} {s s' : State} {e : Effect} (h : SameButStaleInput s s') (he : Does i s e) :
    SameButStaleInput (e.apply s) (e.apply s') := by
  obtain ⟨b, rfl, hb⟩ := exists_inBuf_of_sameButStaleInput h
  cases e with
  | start m => exact ⟨rfl, fun k _ hk => absurd hk (Nat.not_lt_zero k)⟩
  | clear => exact ⟨rfl, fun _ _ _ => rfl⟩
  | block x =>
    rw [Effect.apply, Effect.apply, storeInput_eq_of_agreeBelow he.inCnt_of_block hb]
    exact ⟨rfl, fun _ _ _ => rfl⟩
  | store x =>
    have hstored := hb.set s.inCnt.isLt x
    rw [← val_succ_of_ne_last he.inCnt_of_store] at hstored
    exact ⟨rfl, hstored⟩
  | _ => exact ⟨rfl, hb⟩

/-- Settles O38: the tests do not read `IN_BUF`, and the block step, its one reader, runs on a frame with no stale byte. -/
theorem staleInputIsNeverRead : Obligations.StaleInputIsNeverRead := by
  intro i s s' t hs h
  obtain ⟨b, rfl, -⟩ := exists_inBuf_of_sameButStaleInput hs
  obtain ⟨e, he, rfl, hexec⟩ := exec_effect_of_sameTests (s' := { s with inBuf := b }) h ⟨rfl, rfl, rfl, rfl⟩
  exact ⟨_, hexec, apply_sameButStaleInput hs he⟩

end Sys2Proof.Proofs.StateElements

/-! Proofs of the statements about the command word (30_encoding.md rules R80 to R83). `ARG` is read for opcodes 0x01 and
0x04 alone, so what does not depend on an operand is a fact about the opcode byte with `ARG` 0. -/

namespace Sys2Proof.Proofs.CommandWord

open Sys2Proof.Machine Sys2Proof.Laws

/-! What the decoder reads (R81, R82) -/

theorem decode_of_opField_loadKey {w : CmdWord} (h : opField w = 0x01#8) : decode w = .loadKey (argField w) := by
  simp only [decode, h]
  rfl

theorem decode_of_opField_pushByte {w : CmdWord} (h : opField w = 0x04#8) :
    decode w = .pushByte (byteOperand (argField w)) := by
  simp only [decode, h]
  rfl

/-- No opcode but those two reads `ARG`. -/
theorem decode_eq_decode_zero {w : CmdWord} (hload : opField w ≠ 0x01#8) (hpush : opField w ≠ 0x04#8) :
    decode w = decode (cmdWord (opField w) 0#32) := by
  simp only [decode, opField_cmdWord, hload, hpush, if_false]

/-- What reads no operand of a command depends on the opcode alone. -/
theorem apply_decode_eq_zero {α : Type} (f : Instr → α) (hload : ∀ k, f (.loadKey k) = f (.loadKey 0))
    (hpush : ∀ b, f (.pushByte b) = f (.pushByte 0)) (w : CmdWord) :
    f (decode w) = f (decode (cmdWord (opField w) 0#32)) := by
  by_cases h1 : opField w = 0x01#8
  · rw [decode_of_opField_loadKey h1, hload, h1]
    rfl
  by_cases h4 : opField w = 0x04#8
  · rw [decode_of_opField_pushByte h4, hpush, h4]
    rfl
  rw [decode_eq_decode_zero h1 h4]

/-- The used bits of `ARG` decide what the words of an opcode decode to (R81). -/
theorem decode_eq_of_used_bits {w w' : CmdWord} (hop : opField w' = opField w) (hload : opField w ≠ 0x01#8)
    (hbyte : opField w = 0x04#8 → byteOperand (argField w') = byteOperand (argField w)) : decode w' = decode w := by
  by_cases hpush : opField w = 0x04#8
  · rw [decode_of_opField_pushByte hpush, decode_of_opField_pushByte (hop.trans hpush), hbyte hpush]
  · rw [decode_eq_decode_zero hload hpush, decode_eq_decode_zero (hop ▸ hload) (hop ▸ hpush), hop]

/-! The decoder and the encoder -/

/-- The opcodes with an operand give it back; every other word is one of its opcode's finitely many. -/
@[simp] theorem decode_encode (i : Instr) : decode (encode i) = i := by
  cases i with
  | loadKey k => rw [encode, decode_of_opField_loadKey (opField_cmdWord _ _), argField_cmdWord]
  | pushByte b =>
    rw [encode, decode_of_opField_pushByte (opField_cmdWord _ _), argField_cmdWord, byteOperand_zext]
  | reserved0C0F o | reserved101F o | reserved203F o | reserved407F o | reserved80FF o =>
    revert o
    decide +kernel
  | nop | startEnc | startDec | popByte | endStream | readStatus | readT | readS | readBlkcnt | clear => rfl

/-- The table's numbering of a word's bits is the word's own (R80). -/
theorem decodeTableWord_toNat (w : CmdWord) : decodeTableWord 40 w.toNat = some (decode w) := by
  rw [decodeTableWord, if_pos ⟨le_rfl, w.isLt⟩, BitVec.ofNat_toNat, BitVec.setWidth_eq]

/-- Settles O1: the decoder is a left inverse of the encoder, command by command. -/
theorem decodeAfterEncode : Obligations.DecodeAfterEncode := fun i =>
  ⟨decode_encode i, by rw [decodeTableWord_toNat, decode_encode]⟩

/-- The low byte of a word, zero-extended, is the word with its other bits 0. -/
theorem zext_byteOperand (arg : Word) : 0#24 ++ byteOperand arg = arg &&& 0xFF#32 := by
  have hmask : 0xFF#32 = 0#24 ++ BitVec.allOnes 8 := by decide
  apply BitVec.eq_of_getLsbD_eq
  intro i hi
  rw [hmask, BitVec.getLsbD_and, BitVec.getLsbD_append, BitVec.getLsbD_append, BitVec.getLsbD_allOnes]
  by_cases hlow : i < 8 <;> simp [hlow, byteOperand]

/-- Every opcode is the one its own command is written with. -/
theorem encode_decode_cmdWord_zero :
    ∀ op : BitVec 8, encode (decode (cmdWord op 0#32)) = cmdWord op 0#32 := by
  decide +kernel

/-- Encoding what a word decodes to makes its ignored `ARG` bits 0 (R81, R95). -/
theorem encode_decode (w : CmdWord) :
    encode (decode w) = cmdWord (opField w)
      (if opField w = 0x01#8 then argField w else if opField w = 0x04#8 then argField w &&& 0xFF#32 else 0#32) := by
  by_cases hload : opField w = 0x01#8
  · rw [decode_of_opField_loadKey hload, encode, if_pos hload, hload]
  by_cases hpush : opField w = 0x04#8
  · rw [decode_of_opField_pushByte hpush, encode, zext_byteOperand, if_neg hload, if_pos hpush, hpush]
  rw [decode_eq_decode_zero hload hpush, encode_decode_cmdWord_zero, if_neg hload, if_neg hpush]

/-- Settles O2: the decoder reads the used bits of `ARG` alone, and the encoder writes the others 0. -/
theorem operandsAssembled : Obligations.OperandsAssembled := fun w =>
  ⟨decode_of_opField_loadKey, decode_of_opField_pushByte,
    fun _ hop hload hbyte _ => by rw [decode_eq_of_used_bits hop hload hbyte], encode_decode w⟩

/-! The opcode table (R82, R83) -/

/-- The mask of every row lies in the opcode. -/
theorem mask_of_mem_opcodeTable : ∀ row ∈ opcodeTable, row.mask = cmdWord (opField row.mask) 0#32 := by
  decide

/-- A mask that lies in the opcode keeps nothing of `ARG`. -/
theorem and_cmdWord_zero (w : CmdWord) (m : BitVec 8) : w &&& cmdWord m 0#32 = cmdWord (opField w &&& m) 0#32 :=
  calc w &&& cmdWord m 0#32
    _ = cmdWord (opField w) (argField w) &&& cmdWord m 0#32 := by rw [cmdWord_fields]
    _ = cmdWord (opField w &&& m) (argField w &&& 0#32) := append_and_append _ _ _ _
    _ = cmdWord (opField w &&& m) 0#32 := by rw [BitVec.and_zero]

/-- Whether a row selects a word depends on the opcode alone. -/
theorem selects_eq_zero {row : OpcodeRow} (hrow : row ∈ opcodeTable) (w : CmdWord) :
    row.selects w = row.selects (cmdWord (opField w) 0#32) := by
  rw [OpcodeRow.selects, OpcodeRow.selects, mask_of_mem_opcodeTable row hrow, and_cmdWord_zero, and_cmdWord_zero,
    opField_cmdWord]

/-- Every opcode belongs to the one row of its command. -/
theorem filter_opcodeTable_cmdWord_zero : ∀ op : BitVec 8,
    opcodeTable.filter (fun row => row.selects (cmdWord op 0#32)) = [opcodeRow (decode (cmdWord op 0#32))] := by
  decide +kernel

/-- Settles O3: neither the rows' test nor the row of the decoded command depends on `ARG`, and each opcode has one row. -/
theorem everyWordSelectsOneRow : Obligations.EveryWordSelectsOneRow := fun w => by
  rw [apply_decode_eq_zero opcodeRow (fun _ => rfl) (fun _ => rfl), ← filter_opcodeTable_cmdWord_zero]
  exact List.filter_congr fun row hrow => selects_eq_zero hrow w

/-- An opcode that takes no operand decodes to the command it is written for, whatever `ARG` is. -/
theorem decode_cmdWord_of_encode {i : Instr} {op : BitVec 8} (hi : encode i = cmdWord op 0#32)
    (hop : op ≠ 0x01#8 ∧ op ≠ 0x04#8) (arg : Word) : decode (cmdWord op arg) = i := by
  obtain ⟨hload, hpush⟩ := hop
  rw [decode_eq_decode_zero (by rwa [opField_cmdWord]) (by rwa [opField_cmdWord]), opField_cmdWord, ← hi, decode_encode]

theorem decode_cmdWord_loadKey (arg : Word) : decode (cmdWord 0x01#8 arg) = .loadKey arg := by
  rw [decode_of_opField_loadKey (opField_cmdWord _ _), argField_cmdWord]

theorem decode_cmdWord_pushByte (arg : Word) : decode (cmdWord 0x04#8 arg) = .pushByte (arg.setWidth 8) := by
  rw [decode_of_opField_pushByte (opField_cmdWord _ _), argField_cmdWord, byteOperand,
    BitVec.setWidth_eq_extractLsb' (by omega)]

/-- The reserved opcodes are 0x0C to 0xFF (R83). -/
theorem isReserved_decode_cmdWord_zero :
    ∀ op : BitVec 8, (decode (cmdWord op 0#32)).isReserved = true ↔ 0x0C ≤ op.toNat := by
  decide +kernel

/-- Settles O4: the two opcodes with an operand by what they read of `ARG`, the other ten by their encodings; whether a
command is reserved does not depend on `ARG`. -/
theorem opcodeMap : Obligations.OpcodeMap := by
  intro arg
  refine ⟨decode_cmdWord_of_encode rfl (by decide) arg, decode_cmdWord_loadKey arg,
    decode_cmdWord_of_encode rfl (by decide) arg, decode_cmdWord_of_encode rfl (by decide) arg,
    decode_cmdWord_pushByte arg, decode_cmdWord_of_encode rfl (by decide) arg,
    decode_cmdWord_of_encode rfl (by decide) arg, decode_cmdWord_of_encode rfl (by decide) arg,
    decode_cmdWord_of_encode rfl (by decide) arg, decode_cmdWord_of_encode rfl (by decide) arg,
    decode_cmdWord_of_encode rfl (by decide) arg, decode_cmdWord_of_encode rfl (by decide) arg,
    fun op => ?_⟩
  rw [apply_decode_eq_zero Instr.isReserved (fun _ => rfl) (fun _ => rfl), opField_cmdWord]
  exact isReserved_decode_cmdWord_zero op

/-- Settles O5: six fixed words, decoded by evaluation. -/
theorem sampleWordsDecode : Obligations.SampleWordsDecode := ⟨rfl, rfl, rfl, rfl, rfl, rfl⟩

end Sys2Proof.Proofs.CommandWord

/-! Proof of the statement about the issue of a command (30_encoding.md rule R94): a step is the decoded command's effect. -/

namespace Sys2Proof.Proofs.CommandIssue

open Sys2Proof.Machine Sys2Proof.Laws Sys2Proof.Proofs.Effects

theorem nextAction_of_hostQueue_cons {s : State} {a : HostAction} {rest : List HostAction}
    (hq : s.hostQueue = a :: rest) : nextAction s = some a := by
  rw [nextAction, hq, List.head?_cons]

theorem step_of_command {s : State} {cmd : CmdWord} (hinv : invariantsHold s = true)
    (ha : nextAction s = some (.command cmd)) : step s = exec (decode cmd) s := by
  simp only [step, ha, hinv, if_true]

/-- Every effect but the hold accepts the command (R260). -/
theorem apply_accepts {e : Effect} (he : e ≠ .stay) (s : State) :
    (e.apply s).hostQueue = s.hostQueue.tail ∧ ∃ v, (e.apply s).responses = s.responses ++ [v] := by
  cases e with
  | stay => exact absurd rfl he
  | _ => exact ⟨rfl, _, rfl⟩

/-- Only a held command changes nothing and is not accepted. -/
theorem held_of_does_stay {i : Instr} {s : State} (h : Does i s .stay) : held i s = true := by
  obtain hh | _ | ⟨_, _, ha⟩ := h
  · exact hh
  · cases ha

/-- A command that is not held is accepted, whatever its effect. -/
theorem exists_exec_accepted {i : Instr} {s : State} (hh : held i s = false) :
    ∃ t v, exec i s = .next t ∧ t.hostQueue = s.hostQueue.tail ∧ t.responses = s.responses ++ [v] := by
  obtain ⟨e, he⟩ := exists_does i s
  have hacc : e ≠ .stay := by
    rintro rfl
    exact Bool.false_ne_true (hh.symm.trans (held_of_does_stay he))
  obtain ⟨hqueue, v, hresp⟩ := apply_accepts hacc s
  exact ⟨_, v, he.exec_eq, hqueue, hresp⟩

/-- Settles O6: the step is the decoded command's `exec`, which holds the command or accepts it. -/
theorem stepRunsTheIssuedCommand : Obligations.StepRunsTheIssuedCommand := by
  intro s cmd rest hinv hq
  have hstep : step s = exec (decode cmd) s := step_of_command hinv (nextAction_of_hostQueue_cons hq)
  refine ⟨hstep, fun hh => hstep.trans (Does.held hh).exec_eq, fun hh => ?_⟩
  obtain ⟨t, v, hexec, hqueue, hresp⟩ := exists_exec_accepted hh
  exact ⟨t, v, hstep.trans hexec, by rw [hqueue, hq, List.tail_cons], hresp⟩

end Sys2Proof.Proofs.CommandIssue

/-! Proofs of the statements about block packing (30_encoding.md rules R90 to R93), bit by bit. -/

namespace Sys2Proof.Proofs.Packing

open Sys2Proof.Machine Sys2Proof.Laws

/-- The byte and the bit a cell is packed into (R90). -/
theorem getLsbD_pack (g : Grid) (r c : Fin 16) :
    ((pack g)[2 * r.val + c.val / 8]'(by omega)).getLsbD (7 - c.val % 8) = cell g r c := by
  have hr : Fin.ofNat 16 ((2 * r.val + c.val / 8) / 2) = r := by
    apply Fin.ext
    rw [Fin.val_ofNat]
    omega
  have hc : Fin.ofNat 16 (8 * ((2 * r.val + c.val / 8) % 2) + (7 - (7 - c.val % 8))) = c := by
    apply Fin.ext
    rw [Fin.val_ofNat]
    omega
  rw [getElem_pack, getLsbD_packByte g _ _ (by omega), hr, hc]

/-- The two bytes of a row, `h` = 0 and `h` = 1, are the high and the low half of its row value (R93). -/
theorem getElem_pack_half (g : Grid) (r : Fin 16) (h : Nat) (hh : h < 2) :
    (pack g)[2 * r.val + h]'(by omega) = (rowval g r).extractLsb' (8 * (1 - h)) 8 := by
  apply BitVec.eq_of_getLsbD_eq
  intro p hp
  have hr : Fin.ofNat 16 ((2 * r.val + h) / 2) = r := by
    apply Fin.ext
    rw [Fin.val_ofNat]
    omega
  have hcol : 8 * ((2 * r.val + h) % 2) + (7 - p) = 16 - 1 - (8 * (1 - h) + p) := by omega
  rw [getElem_pack, getLsbD_packByte g _ p hp, hr, hcol, BitVec.getLsbD_extractLsb', rowval,
    getLsbD_msbFirst 16 _ _ (by omega), decide_eq_true hp, Bool.true_and]

/-- Settles O46: the place of each cell, and each half of a row. -/
theorem packLayout : Obligations.PackLayout := fun g r c =>
  ⟨getLsbD_pack g r c, getElem_pack_half g r 0 (by omega), getElem_pack_half g r 1 (by omega)⟩

/-- `unpack` reads each cell where `pack` puts it. -/
@[simp] theorem unpack_pack (g : Grid) : unpack (pack g) = g :=
  grid_ext fun r c => (cell_unpack _ r c).trans (getLsbD_pack g r c)

/-- Bit `p` of byte `k` is packed from the cell that `unpack` reads from bit `p` of byte `k`. -/
@[simp] theorem pack_unpack (b : Frame) : pack (unpack b) = b := by
  apply Vector.ext
  intro k hk
  apply BitVec.eq_of_getLsbD_eq
  intro p hp
  have hbyte : 2 * (Fin.ofNat 16 (k / 2)).val + (Fin.ofNat 16 (8 * (k % 2) + (7 - p))).val / 8 = k := by
    rw [Fin.val_ofNat, Fin.val_ofNat]
    omega
  have hbit : 7 - (Fin.ofNat 16 (8 * (k % 2) + (7 - p))).val % 8 = p := by
    rw [Fin.val_ofNat]
    omega
  rw [getElem_pack, getLsbD_packByte _ _ p hp, cell_unpack]
  simp only [hbyte, hbit]

/-- Settles O47: `unpack` is the inverse of `pack` on both sides. -/
theorem packUnpackInverse : Obligations.PackUnpackInverse := ⟨unpack_pack, pack_unpack⟩

end Sys2Proof.Proofs.Packing

/-! Proofs of the statements about the assembler (30_encoding.md rules R95 and R96): what each of its functions answers, and
from it the ranges, the text, and the pseudo-instructions. -/

namespace Sys2Proof.Proofs.Assembler

open Sys2Proof.Machine Sys2Proof.Claims

/-- `allSome` answers the values of a list that has no error in it. -/
theorem allSome_eq_some {α : Type} {l : List (Option α)} {xs : List α} : allSome l = some xs ↔ l = xs.map some := by
  induction l generalizing xs with
  | nil => cases xs <;> simp [allSome]
  | cons o rest ih =>
    cases o with
    | none => cases xs <;> simp [allSome]
    | some x => cases xs <;> simp [allSome, ih, and_comm]

/-! One command (R95) -/

theorem assemblePlain_eq_some {i j : Instr} {o : Option Nat} : assemblePlain i o = some j ↔ o = none ∧ j = i := by
  cases o <;> simp [assemblePlain, eq_comm]

theorem exists_of_assembleLoadKey {o : Option Nat} {i : Instr} (h : assembleLoadKey o = some i) :
    o.isSome = true ∧ ∃ k, i = .loadKey k := by
  cases o with
  | none => cases h
  | some n =>
    simp only [assembleLoadKey, Option.ite_none_right_eq_some, Option.some.injEq] at h
    obtain ⟨-, rfl⟩ := h
    exact ⟨rfl, _, rfl⟩

theorem exists_of_assemblePushByte {o : Option Nat} {i : Instr} (h : assemblePushByte o = some i) :
    o.isSome = true ∧ ∃ b, i = .pushByte b := by
  cases o with
  | none => cases h
  | some n =>
    simp only [assemblePushByte, Option.ite_none_right_eq_some, Option.some.injEq] at h
    obtain ⟨-, rfl⟩ := h
    exact ⟨rfl, _, rfl⟩

theorem assemblePushByte_toNat (b : Byte) : assemblePushByte (some b.toNat) = some (.pushByte b) := by
  rw [assemblePushByte, if_pos b.isLt, BitVec.ofNat_toNat, BitVec.setWidth_eq]

theorem assemble_of_mem_plainCommands {p : List Char × Mnemonic × Instr} (hp : p ∈ plainCommands) (o : Option Nat) :
    assemble ⟨p.2.1, o⟩ = assemblePlain p.2.2 o := by
  simp only [plainCommands, List.mem_cons, List.not_mem_nil, or_false] at hp
  obtain rfl | rfl | rfl | rfl | rfl | rfl | rfl | rfl | rfl | rfl := hp <;> rfl

theorem assembleLine_plainCommands : ∀ p ∈ plainCommands, assembleLine p.1 = some [p.2.2] := by
  decide +kernel

theorem plainCommands_not_reserved :
    ∀ p ∈ plainCommands, p.2.2.isReserved = false ∧ p.2.1 ≠ .loadKey ∧ p.2.1 ≠ .pushByte := by
  decide

/-- The mnemonics of R82 are the two that take an operand and the ten that do not. -/
theorem mnemonic_cases (m : Mnemonic) : m = .loadKey ∨ m = .pushByte ∨ ∃ p ∈ plainCommands, m = p.2.1 := by
  cases m <;> simp [plainCommands]

/-- Nothing assembles to a reserved opcode, and the two commands with an operand are the ones that take one. -/
theorem not_reserved_and_operand_of_assemble {a : AsmCommand} {i : Instr} (h : assemble a = some i) :
    i.isReserved = false ∧ (a.operand.isSome = true ↔ a.mnemonic = .loadKey ∨ a.mnemonic = .pushByte) := by
  obtain ⟨m, o⟩ := a
  obtain rfl | rfl | ⟨p, hp, rfl⟩ := mnemonic_cases m
  · obtain ⟨ho, k, rfl⟩ := exists_of_assembleLoadKey h
    exact ⟨rfl, fun _ => .inl rfl, fun _ => ho⟩
  · obtain ⟨ho, b, rfl⟩ := exists_of_assemblePushByte h
    exact ⟨rfl, fun _ => .inr rfl, fun _ => ho⟩
  · rw [assemble_of_mem_plainCommands hp, assemblePlain_eq_some] at h
    obtain ⟨rfl, rfl⟩ := h
    obtain ⟨hres, hload, hpush⟩ := plainCommands_not_reserved p hp
    exact ⟨hres, nofun, fun hm => absurd hm (not_or.mpr ⟨hload, hpush⟩)⟩

/-! A block of pushes (R96) -/

theorem expandPushBytes_toNat (xs : List Byte) :
    expandPushBytes (xs.map fun x => x.toNat) = some (xs.map .pushByte) := by
  rw [expandPushBytes, allSome_eq_some, List.map_map, List.map_map]
  exact List.map_congr_left fun x _ => assemblePushByte_toNat x

theorem exists_of_mem_expandPushBytes {xs : List Nat} {is : List Instr} {i : Instr} (h : expandPushBytes xs = some is)
    (hi : i ∈ is) : ∃ b, i = .pushByte b := by
  have hmem : some i ∈ xs.map fun x => assemblePushByte (some x) := by
    rw [allSome_eq_some.mp h]
    exact List.mem_map_of_mem hi
  obtain ⟨x, -, hx⟩ := List.mem_map.mp hmem
  obtain ⟨-, hb⟩ := exists_of_assemblePushByte hx
  exact hb

theorem expandPushBlock_eq_some {xs : List Nat} {is : List Instr} :
    expandPushBlock xs = some is ↔ xs.length = 32 ∧ expandPushBytes xs = some is := by
  rw [expandPushBlock, Option.ite_none_right_eq_some]

theorem expandPushBlock_toNat (b : Frame) :
    expandPushBlock (b.toList.map fun x => x.toNat) = some (b.toList.map .pushByte) :=
  expandPushBlock_eq_some.mpr ⟨by rw [List.length_map, Vector.length_toList], expandPushBytes_toNat b.toList⟩

/-! Lines of text (R95) -/

theorem assembleLine_comment (line comment : List Char) :
    assembleLine (line ++ ';' :: comment) = assembleLine line := by
  have htake : (line ++ ';' :: comment).takeWhile (fun c => c ≠ ';') = line.takeWhile fun c => c ≠ ';' := by
    induction line with
    | nil => rfl
    | cons c cs ih => simp only [List.cons_append, List.takeWhile_cons, ih]
  rw [assembleLine, htake, assembleLine]

/-- No line names a session (log entry 7). -/
theorem parsePseudo_cases {w : List Char} {args : List Nat} {p : Pseudo} (h : parsePseudo w args = some p) :
    (∃ xs, p = .pushBytes xs) ∨ (∃ xs, p = .pushBlock xs) ∨ (∃ n, p = .popN n) ∨ p = .popBlock := by
  unfold parsePseudo at h
  split_ifs at h
  · exact .inl ⟨args, (Option.some.inj h).symm⟩
  · exact .inr (.inl ⟨args, (Option.some.inj h).symm⟩)
  · split at h
    · exact .inr (.inr (.inl ⟨_, (Option.some.inj h).symm⟩))
    · cases h
    · cases h
  · split at h
    · exact .inr (.inr (.inr (Option.some.inj h).symm))
    · cases h

/-- A pseudo-instruction of a line expands to `PUSH_BYTE` and `POP_BYTE` alone. -/
theorem not_reserved_of_parsePseudo {w : List Char} {args : List Nat} {p : Pseudo} {is : List Instr} {i : Instr}
    (hp : parsePseudo w args = some p) (h : expand p = some is) (hi : i ∈ is) : i.isReserved = false := by
  obtain ⟨xs, rfl⟩ | ⟨xs, rfl⟩ | ⟨n, rfl⟩ | rfl := parsePseudo_cases hp
  · obtain ⟨b, rfl⟩ := exists_of_mem_expandPushBytes h hi
    rfl
  · obtain ⟨-, hbytes⟩ := expandPushBlock_eq_some.mp h
    obtain ⟨b, rfl⟩ := exists_of_mem_expandPushBytes hbytes hi
    rfl
  · obtain rfl := Option.some.inj h
    rw [List.eq_of_mem_replicate hi]
    rfl
  · obtain rfl := Option.some.inj h
    rw [List.eq_of_mem_replicate hi]
    rfl

/-- A line is empty, one command, or one pseudo-instruction. -/
theorem assembleWords_cases {ws : List (List Char)} {is : List Instr} (h : assembleWords ws = some is) :
    is = [] ∨ (∃ a i, assemble a = some i ∧ is = [i]) ∨
      ∃ w args p, parsePseudo w args = some p ∧ expand p = some is := by
  cases ws with
  | nil => exact .inl (Option.some.inj h).symm
  | cons w rest =>
    simp only [assembleWords] at h
    split at h
    · cases h
    split at h
    · split at h
      · obtain ⟨i, hi, rfl⟩ := Option.map_eq_some_iff.mp h
        exact .inr (.inl ⟨_, i, hi, rfl⟩)
      · obtain ⟨i, hi, rfl⟩ := Option.map_eq_some_iff.mp h
        exact .inr (.inl ⟨_, i, hi, rfl⟩)
      · cases h
    · obtain ⟨p, hp, hexp⟩ := Option.bind_eq_some_iff.mp h
      exact .inr (.inr ⟨w, _, p, hp, hexp⟩)

theorem not_reserved_of_assembleWords {ws : List (List Char)} {is : List Instr} {i : Instr}
    (h : assembleWords ws = some is) (hi : i ∈ is) : i.isReserved = false := by
  obtain rfl | ⟨a, j, hj, rfl⟩ | ⟨w, args, p, hp, hexp⟩ := assembleWords_cases h
  · cases hi
  · obtain ⟨hres, -⟩ := not_reserved_and_operand_of_assemble hj
    rwa [List.mem_singleton.mp hi]
  · exact not_reserved_of_parsePseudo hp hexp hi

/-- Settles O59: each mnemonic by the function that assembles it, and each line by what it can be. -/
theorem assemblerRanges : Obligations.AssemblerRanges := by
  refine ⟨fun p hp => ⟨?_, fun n => ?_, assembleLine_plainCommands p hp⟩, rfl, rfl, fun n => rfl, fun n => ?_,
    fun a i => not_reserved_and_operand_of_assemble, assembleLine_comment,
    fun line is i => not_reserved_of_assembleWords⟩
  · rw [assemble_of_mem_plainCommands hp, assemblePlain]
  · rw [assemble_of_mem_plainCommands hp, assemblePlain]
  · simp only [assemble, assemblePushByte, Nat.lt_succ_iff]

/-! Sessions (R96) -/

theorem expandBlocks_frames (bs : List Frame) :
    expandBlocks bs.length ((bs.flatMap fun b => b.toList).map fun x => x.toNat) = some (bs.flatMap blockCommands) := by
  induction bs with
  | nil => rfl
  | cons b bs ih =>
    have hlen : (b.toList.map fun x => x.toNat).length = 32 := by rw [List.length_map, Vector.length_toList]
    rw [List.length_cons, List.flatMap_cons, List.map_append, expandBlocks, List.take_left' hlen, List.drop_left' hlen,
      expandPushBlock_toNat, ih, List.flatMap_cons, blockCommands]

/-- The bytes of `m` blocks are exactly `32·m`. -/
theorem length_of_expandBlocks {m : Nat} {xs : List Nat} {is : List Instr} (h : expandBlocks m xs = some is) :
    xs.length = 32 * m := by
  induction m generalizing xs is with
  | zero =>
    cases xs with
    | nil => rfl
    | cons x xs => cases h
  | succ m ih =>
    rw [expandBlocks] at h
    split at h
    · rename_i block rest hblock hrest
      obtain ⟨htake, -⟩ := expandPushBlock_eq_some.mp hblock
      have hdrop := ih hrest
      rw [List.length_take] at htake
      rw [List.length_drop] at hdrop
      omega
    · cases h
    · cases h

theorem expandSession_frames (start : Instr) {k : Nat} (hk : k < 2 ^ 32) (bs : List Frame) :
    expandSession start k ((bs.flatMap fun b => b.toList).map fun x => x.toNat)
      = some (sessionCommands start (BitVec.ofNat 32 k) bs) := by
  have hlen : ((bs.flatMap fun b => b.toList).map fun x => x.toNat).length / 32 = bs.length := by
    simp
  rw [expandSession, assembleLoadKey, if_pos hk, hlen, expandBlocks_frames, sessionCommands]

theorem expandSession_of_partial_block (start : Instr) (k : Nat) {xs : List Nat} (hlen : xs.length % 32 ≠ 0) :
    expandSession start k xs = none := by
  have hblocks : expandBlocks (xs.length / 32) xs = none := by
    apply Option.eq_none_iff_forall_ne_some.mpr
    intro is h
    have hwhole : xs.length = 32 * (xs.length / 32) := length_of_expandBlocks h
    omega
  rw [expandSession, hblocks]
  cases assembleLoadKey (some k) <;> rfl

/-- Settles O60: pushes byte by byte, sessions block by block; both session forms are one expansion. -/
theorem pseudoExpansion : Obligations.PseudoExpansion :=
  ⟨expandPushBytes_toNat, expandPushBlock_toNat, fun _ hlen => if_neg hlen, fun _ => rfl, rfl,
    fun _ bs hk => ⟨expandSession_frames _ hk bs, expandSession_frames _ hk bs⟩,
    fun k _ hlen => ⟨expandSession_of_partial_block _ k hlen, expandSession_of_partial_block _ k hlen⟩⟩

end Sys2Proof.Proofs.Assembler

/-! Proofs of the statements about the grid and its generations (41_ca_engine.md rules R121 to R130, with the swaps of R203
and R204 and the XOR of R240): each operation by its cells, the neighbour count as a sum over the cells at toroidal distance
1, and from that sum the symmetries and the locality of a generation. -/

namespace Sys2Proof.Proofs.CaEngine

open Sys2Proof.Machine Sys2Proof.Laws

/-! Cells of the grid operations (R121, R123, R124) -/

@[simp] theorem cell_setCell (g : Grid) (r c : Fin 16) (v : Bool) (a b : Fin 16) :
    cell (setCell g r c v) a b = if a = r ∧ b = c then v else cell g a b := by
  rw [setCell, cell_ofCells]

theorem setCell_cell (g : Grid) (r c : Fin 16) : setCell g r c (cell g r c) = g := by
  refine grid_ext fun a b => ?_
  rw [cell_setCell]
  split
  case isTrue h =>
    obtain ⟨rfl, rfl⟩ := h
    rfl
  case isFalse => rfl

/-- An index, from its number counted from the other end: the place of an element in a row or column value. -/
theorem ofNat_mirror (i : Fin 16) : Fin.ofNat 16 (16 - 1 - (15 - i.val)) = i := by
  apply Fin.ext
  rw [Fin.val_ofNat]
  omega

theorem getLsbD_rowval (g : Grid) (r c : Fin 16) : (rowval g r).getLsbD (15 - c.val) = cell g r c := by
  rw [rowval, getLsbD_msbFirst 16 _ _ (by omega), ofNat_mirror]

theorem getLsbD_colval (g : Grid) (r c : Fin 16) : (colval g c).getLsbD (15 - r.val) = cell g r c := by
  rw [colval, getLsbD_msbFirst 16 _ _ (by omega), ofNat_mirror]

/-! The swaps (R203, R204) carry the library's laws of a transposition of the indices over to grids. -/

theorem cell_swapRows_eq_swap (g : Grid) (a b r c : Fin 16) :
    cell (swapRows g a b) r c = cell g (Equiv.swap a b r) c := by
  rw [cell_swapRows, Equiv.swap_apply_def, apply_ite (cell g · c), apply_ite (cell g · c)]

theorem cell_swapCols_eq_swap (g : Grid) (a b r c : Fin 16) :
    cell (swapCols g a b) r c = cell g r (Equiv.swap a b c) := by
  rw [cell_swapCols, Equiv.swap_apply_def, apply_ite (cell g r), apply_ite (cell g r)]

theorem swapRows_swapRows (g : Grid) (a b : Fin 16) : swapRows (swapRows g a b) a b = g :=
  grid_ext fun r c => by rw [cell_swapRows_eq_swap, cell_swapRows_eq_swap, Equiv.swap_apply_self]

theorem swapCols_swapCols (g : Grid) (a b : Fin 16) : swapCols (swapCols g a b) a b = g :=
  grid_ext fun r c => by rw [cell_swapCols_eq_swap, cell_swapCols_eq_swap, Equiv.swap_apply_self]

theorem swapRows_comm (g : Grid) (a b : Fin 16) : swapRows g a b = swapRows g b a :=
  grid_ext fun r c => by rw [cell_swapRows_eq_swap, cell_swapRows_eq_swap, Equiv.swap_comm]

theorem swapCols_comm (g : Grid) (a b : Fin 16) : swapCols g a b = swapCols g b a :=
  grid_ext fun r c => by rw [cell_swapCols_eq_swap, cell_swapCols_eq_swap, Equiv.swap_comm]

theorem swapRows_self (g : Grid) (a : Fin 16) : swapRows g a a = g :=
  grid_ext fun r c => by rw [cell_swapRows_eq_swap, Equiv.swap_self, Equiv.refl_apply]

theorem swapCols_self (g : Grid) (a : Fin 16) : swapCols g a a = g :=
  grid_ext fun r c => by rw [cell_swapCols_eq_swap, Equiv.swap_self, Equiv.refl_apply]

/-! XOR (R240) -/

theorem gxor_gxor_cancel (g h : Grid) : gxor (gxor g h) h = g :=
  grid_ext fun r c => by rw [cell_gxor, cell_gxor, Bool.xor_assoc, Bool.xor_self, Bool.xor_false]

theorem gxor_ZERO (g : Grid) : gxor g Grid.ZERO = g :=
  grid_ext fun r c => by rw [cell_gxor, cell_ZERO, Bool.xor_false]

theorem gxor_self (g : Grid) : gxor g g = Grid.ZERO :=
  grid_ext fun r c => by rw [cell_gxor, Bool.xor_self, cell_ZERO]

theorem gxor_comm (g h : Grid) : gxor g h = gxor h g :=
  grid_ext fun r c => by rw [cell_gxor, cell_gxor, Bool.xor_comm]

theorem gxor_assoc (g h k : Grid) : gxor (gxor g h) k = gxor g (gxor h k) :=
  grid_ext fun r c => by simp only [cell_gxor, Bool.xor_assoc]

/-- Settles O39: each operation by its cells, its laws from those of index transpositions and of Boolean XOR. -/
theorem gridOperations : Obligations.GridOperations := fun g h k r c a b v =>
  ⟨cell_setCell g r c v a b, setCell_cell g r c, getLsbD_rowval g r c, getLsbD_colval g r c, cell_swapRows g a b r c,
    cell_swapCols g a b r c, swapRows_swapRows g a b, swapRows_comm g a b, swapRows_self g a, swapCols_swapCols g a b,
    swapCols_comm g a b, swapCols_self g a, cell_gxor g h r c, gxor_gxor_cancel g h, gxor_ZERO g, gxor_self g,
    gxor_comm g h, gxor_assoc g h k⟩

/-! The distance on the torus (R130) -/

/-- The distance of two indices depends on their difference alone. -/
theorem cycleDist_eq_of_sub_eq {a b a' b' : Fin 16} (h : a - b = a' - b') : cycleDist a b = cycleDist a' b' := by
  have hneg : b - a = b' - a' := by rw [← neg_sub a b, h, neg_sub]
  rw [cycleDist, h, hneg, cycleDist]

theorem cycleDist_comm (a b : Fin 16) : cycleDist a b = cycleDist b a := min_comm _ _

theorem cycleDist_triangle (a b c : Fin 16) : cycleDist a c ≤ cycleDist a b + cycleDist b c := by
  simp only [cycleDist, Fin.sub_def]
  omega

theorem cycleDist_le (a b : Fin 16) : cycleDist a b ≤ 8 := by
  simp only [cycleDist, Fin.sub_def]
  omega

theorem torusDist_self (r c : Fin 16) : torusDist r c r c = 0 := by
  simp [torusDist, cycleDist]

theorem torusDist_triangle (r c r' c' r'' c'' : Fin 16) :
    torusDist r c r'' c'' ≤ torusDist r c r' c' + torusDist r' c' r'' c'' := by
  have hr := cycleDist_triangle r r' r''
  have hc := cycleDist_triangle c c' c''
  simp only [torusDist]
  omega

/-- Moving both cells by one offset keeps their distance. -/
theorem torusDist_add (r c dr dc : Fin 16) : torusDist r c (r + dr) (c + dc) = torusDist 0 0 dr dc := by
  rw [torusDist, cycleDist_eq_of_sub_eq (b' := dr) (show r - (r + dr) = 0 - dr by abel),
    cycleDist_eq_of_sub_eq (b' := dc) (show c - (c + dc) = 0 - dc by abel), torusDist]

/-! The neighbour count (R122) -/

/-- The offsets of the eight neighbours of R122. -/
def neighbourOffsets : Finset (Fin 16 × Fin 16) :=
  {(-1, -1), (-1, 0), (-1, 1), (0, -1), (0, 1), (1, -1), (1, 0), (1, 1)}

theorem mem_neighbourOffsets : ∀ d : Fin 16 × Fin 16, d ∈ neighbourOffsets ↔ torusDist 0 0 d.1 d.2 = 1 := by
  decide +kernel

theorem nbr_eq_sum_offsets (g : Grid) (r c : Fin 16) :
    nbr g r c = ∑ d ∈ neighbourOffsets, (cell g (r + d.1) (c + d.2)).toNat := by
  rw [neighbourOffsets]
  iterate 7 rw [Finset.sum_insert (by decide)]
  simp only [Finset.sum_singleton, nbr, sub_eq_add_neg, add_zero, add_assoc]

/-- The neighbours are the cells at distance exactly 1. -/
theorem nbr_eq_sum (g : Grid) (r c : Fin 16) :
    nbr g r c = ∑ p : Fin 16 × Fin 16, if torusDist r c p.1 p.2 = 1 then (cell g p.1 p.2).toNat else 0 := by
  calc nbr g r c
    _ = ∑ d ∈ neighbourOffsets, (cell g (r + d.1) (c + d.2)).toNat := nbr_eq_sum_offsets g r c
    _ = ∑ d : Fin 16 × Fin 16, if d ∈ neighbourOffsets then (cell g (r + d.1) (c + d.2)).toNat else 0 := by
        rw [← Finset.sum_filter, Finset.filter_univ_mem]
    _ = ∑ d : Fin 16 × Fin 16,
          if torusDist r c (r + d.1) (c + d.2) = 1 then (cell g (r + d.1) (c + d.2)).toNat else 0 := by
        simp only [mem_neighbourOffsets, torusDist_add]
    _ = ∑ p : Fin 16 × Fin 16, if torusDist r c p.1 p.2 = 1 then (cell g p.1 p.2).toNat else 0 :=
        Equiv.sum_comp (Equiv.addLeft (r, c)) fun p => if torusDist r c p.1 p.2 = 1 then (cell g p.1 p.2).toNat else 0

/-- The count depends on the cells at distance 1 alone. -/
theorem nbr_congr {g h : Grid} {r c : Fin 16}
    (hcell : ∀ r' c', torusDist r c r' c' = 1 → cell g r' c' = cell h r' c') : nbr g r c = nbr h r c := by
  rw [nbr_eq_sum, nbr_eq_sum]
  refine Finset.sum_congr rfl fun p _ => ?_
  split
  case isTrue hd => rw [hcell _ _ hd]
  case isFalse => rfl

theorem nbr_le (g : Grid) (r c : Fin 16) : nbr g r c ≤ 8 := by
  have hcard : neighbourOffsets.card = 8 := rfl
  rw [nbr_eq_sum_offsets, ← hcard, Finset.card_eq_sum_ones]
  exact Finset.sum_le_sum fun d _ => Bool.toNat_le _

@[simp] theorem nbr_ZERO (r c : Fin 16) : nbr Grid.ZERO r c = 0 := by
  simp [nbr]

@[simp] theorem nbr_ONES (r c : Fin 16) : nbr Grid.ONES r c = 8 := by
  simp [nbr]

/-- A single live cell is counted by the cells at distance 1 from it. -/
theorem nbr_single (a b r c : Fin 16) :
    nbr (setCell Grid.ZERO a b true) r c = if torusDist r c a b = 1 then 1 else 0 := by
  rw [nbr_eq_sum, Fintype.sum_eq_single (a, b)]
  · simp
  · rintro ⟨r', c'⟩ hne
    have hoff : ¬(r' = a ∧ c' = b) := fun h => hne (Prod.ext h.1 h.2)
    simp [hoff]

/-- Settles O40, from the count as a sum over the cells at distance 1. -/
theorem neighbourCount : Obligations.NeighbourCount :=
  ⟨fun g r c => (nbr_eq_sum g r c).trans (Fintype.sum_prod_type _), nbr_le, fun r c => ⟨nbr_ZERO r c, nbr_ONES r c⟩,
    nbr_single⟩

/-! The rule and a generation (R125, R126) -/

/-- The thresholds of the rule. -/
theorem cellRule_eq (b : Bool) (n : Nat) :
    cellRule b n = if b = true then decide (2 ≤ n ∧ n ≤ 4) else decide (2 ≤ n ∧ n ≤ 6) := rfl

/-- Settles O41: the eighteen values of the table. -/
theorem ruleTable : Obligations.RuleTable := by
  unfold Obligations.RuleTable
  decide

/-- Below two neighbours and above six no cell lives on or is born. -/
theorem cellRule_eq_false {n : Nat} (hn : n < 2 ∨ 6 < n) (b : Bool) : cellRule b n = false := by
  have hsurvive : ¬(2 ≤ n ∧ n ≤ 4) := by omega
  have hbirth : ¬(2 ≤ n ∧ n ≤ 6) := by omega
  rw [cellRule_eq, decide_eq_false hsurvive, decide_eq_false hbirth, ite_self]

@[simp] theorem cell_gridStep (g : Grid) (r c : Fin 16) :
    cell (gridStep g) r c = cellRule (cell g r c) (nbr g r c) := by
  rw [gridStep, cell_ofCells]

/-- A grid all of whose counts are below two or above six goes to `ZERO`. -/
theorem gridStep_eq_ZERO {g : Grid} (hn : ∀ r c, nbr g r c < 2 ∨ 6 < nbr g r c) : gridStep g = Grid.ZERO :=
  grid_ext fun r c => by rw [cell_gridStep, cellRule_eq_false (hn r c), cell_ZERO]

@[simp] theorem gridStep_ZERO : gridStep Grid.ZERO = Grid.ZERO :=
  gridStep_eq_ZERO fun r c => .inl (by rw [nbr_ZERO]; omega)

@[simp] theorem gridStep_ONES : gridStep Grid.ONES = Grid.ZERO :=
  gridStep_eq_ZERO fun r c => .inr (by rw [nbr_ONES]; omega)

theorem gridStep_single (a b : Fin 16) : gridStep (setCell Grid.ZERO a b true) = Grid.ZERO :=
  gridStep_eq_ZERO fun r c => .inl (by rw [nbr_single]; split <;> omega)

/-- Settles O42: a cell by the rule, and the grids with too few or too many neighbours everywhere. -/
theorem generationStep : Obligations.GenerationStep :=
  ⟨fun g r c => (cell_gridStep g r c).trans (cellRule_eq _ _), gridStep_ZERO, gridStep_ONES, gridStep_single⟩

/-! Iterated generations (R127, R165) -/

theorem gridSteps_add (m n : Nat) (g : Grid) : gridSteps m (gridSteps n g) = gridSteps (m + n) g := by
  induction m with
  | zero => rw [Nat.zero_add, gridSteps]
  | succ m ih => rw [gridSteps, ih, Nat.add_right_comm, gridSteps]

theorem gridSteps_ZERO (n : Nat) : gridSteps n Grid.ZERO = Grid.ZERO := by
  induction n with
  | zero => rfl
  | succ n ih => rw [gridSteps, ih, gridStep_ZERO]

theorem gridSteps_succ_ONES (n : Nat) : gridSteps (n + 1) Grid.ONES = Grid.ZERO :=
  calc gridSteps (n + 1) Grid.ONES
    _ = gridSteps n (gridStep Grid.ONES) := (gridSteps_add n 1 Grid.ONES).symm
    _ = Grid.ZERO := by rw [gridStep_ONES, gridSteps_ZERO]

theorem advance_eq (g : Grid) : advance g = gridSteps 11 g := rfl

/-- Settles O43, by induction on the number of generations. -/
theorem iteratedSteps : Obligations.IteratedSteps :=
  ⟨fun _ => rfl, fun _ _ => rfl, gridSteps_add, fun n => ⟨gridSteps_ZERO n, gridSteps_succ_ONES n⟩, advance_eq,
    (advance_eq _).trans (gridSteps_ZERO 11), (advance_eq _).trans (gridSteps_succ_ONES 10)⟩

/-! Symmetries (R129): a generation commutes with every permutation of the cells that keeps distances. -/

/-- The grid whose cell at `p` is the cell of `g` at `σ p`: every symmetry of R129 is one by its definition. -/
def pullback (σ : Equiv.Perm (Fin 16 × Fin 16)) (g : Grid) : Grid :=
  ofCells fun r c => cell g (σ (r, c)).1 (σ (r, c)).2

/-- A permutation of the cells that keeps toroidal distance. -/
def IsIsometry (σ : Equiv.Perm (Fin 16 × Fin 16)) : Prop :=
  ∀ p q, torusDist (σ p).1 (σ p).2 (σ q).1 (σ q).2 = torusDist p.1 p.2 q.1 q.2

theorem cell_pullback (σ : Equiv.Perm (Fin 16 × Fin 16)) (g : Grid) (r c : Fin 16) :
    cell (pullback σ g) r c = cell g (σ (r, c)).1 (σ (r, c)).2 := by
  rw [pullback, cell_ofCells]

theorem nbr_pullback {σ : Equiv.Perm (Fin 16 × Fin 16)} (hσ : IsIsometry σ) (g : Grid) (r c : Fin 16) :
    nbr (pullback σ g) r c = nbr g (σ (r, c)).1 (σ (r, c)).2 := by
  rw [nbr_eq_sum, nbr_eq_sum]
  conv_rhs => rw [← Equiv.sum_comp σ]
  refine Finset.sum_congr rfl fun p _ => ?_
  rw [cell_pullback, hσ]

theorem gridStep_pullback {σ : Equiv.Perm (Fin 16 × Fin 16)} (hσ : IsIsometry σ) (g : Grid) :
    gridStep (pullback σ g) = pullback σ (gridStep g) :=
  grid_ext fun r c => by
    rw [cell_gridStep, cell_pullback, nbr_pullback hσ, cell_pullback, cell_gridStep]

/-- Permutations of the rows and of the columns that keep distances on the cycle keep them on the torus. -/
theorem isIsometry_prodCongr {ρ κ : Equiv.Perm (Fin 16)} (hρ : ∀ a b, cycleDist (ρ a) (ρ b) = cycleDist a b)
    (hκ : ∀ a b, cycleDist (κ a) (κ b) = cycleDist a b) : IsIsometry (ρ.prodCongr κ) := fun p q => by
  simp only [torusDist, Equiv.prodCongr_apply, Prod.map_fst, Prod.map_snd, hρ, hκ]

theorem cycleDist_subRight (d a b : Fin 16) : cycleDist (Equiv.subRight d a) (Equiv.subRight d b) = cycleDist a b :=
  cycleDist_eq_of_sub_eq (sub_sub_sub_cancel_right a b d)

theorem cycleDist_subLeft (d a b : Fin 16) : cycleDist (Equiv.subLeft d a) (Equiv.subLeft d b) = cycleDist a b :=
  (cycleDist_eq_of_sub_eq (sub_sub_sub_cancel_left a b d)).trans (cycleDist_comm b a)

theorem cycleDist_refl (a b : Fin 16) : cycleDist (Equiv.refl _ a) (Equiv.refl _ b) = cycleDist a b := rfl

theorem isIsometry_prodComm : IsIsometry (Equiv.prodComm (Fin 16) (Fin 16)) := fun _ _ => max_comm _ _

theorem gridStep_torusShift (a b : Fin 16) (g : Grid) : gridStep (torusShift a b g) = torusShift a b (gridStep g) :=
  gridStep_pullback (isIsometry_prodCongr (cycleDist_subRight a) (cycleDist_subRight b)) g

theorem gridStep_reflectRows (g : Grid) : gridStep (reflectRows g) = reflectRows (gridStep g) :=
  gridStep_pullback (isIsometry_prodCongr (cycleDist_subLeft 15) cycleDist_refl) g

theorem gridStep_reflectCols (g : Grid) : gridStep (reflectCols g) = reflectCols (gridStep g) :=
  gridStep_pullback (isIsometry_prodCongr cycleDist_refl (cycleDist_subLeft 15)) g

theorem gridStep_transposeGrid (g : Grid) : gridStep (transposeGrid g) = transposeGrid (gridStep g) :=
  gridStep_pullback isIsometry_prodComm g

/-- Settles O44: each symmetry keeps distances, and the quarter turn is two of them in turn. -/
theorem generationCommutesWithSymmetries : Obligations.GenerationCommutesWithSymmetries := fun g =>
  ⟨fun a b => gridStep_torusShift a b g, gridStep_reflectRows g, gridStep_reflectCols g, gridStep_transposeGrid g,
    by rw [gridStep_transposeGrid, gridStep_reflectRows]⟩

/-! Locality (R130) -/

/-- A cell of the next generation depends on the cells within distance 1. -/
theorem cell_gridStep_congr {g h : Grid} {r c : Fin 16}
    (hcell : ∀ r' c', torusDist r c r' c' ≤ 1 → cell g r' c' = cell h r' c') :
    cell (gridStep g) r c = cell (gridStep h) r c := by
  have hself : cell g r c = cell h r c := hcell r c (by rw [torusDist_self]; omega)
  have hnbr : nbr g r c = nbr h r c := nbr_congr fun r' c' hd => hcell r' c' hd.le
  rw [cell_gridStep, cell_gridStep, hself, hnbr]

/-- One generation reaches one cell further, by the triangle inequality. -/
theorem cell_gridSteps_congr (n : Nat) (g h : Grid) (r c : Fin 16)
    (hcell : ∀ r' c', torusDist r c r' c' ≤ n → cell g r' c' = cell h r' c') :
    cell (gridSteps n g) r c = cell (gridSteps n h) r c := by
  induction n generalizing r c with
  | zero => exact hcell r c (torusDist_self r c).le
  | succ n ih =>
    refine cell_gridStep_congr fun r' c' hnear => ih r' c' fun r'' c'' hfar => hcell r'' c'' ?_
    have htri := torusDist_triangle r c r' c' r'' c''
    omega

/-- Settles O45, by induction on the number of generations; the distance 8 is that of opposite rows. -/
theorem generationLocality : Obligations.GenerationLocality :=
  ⟨cell_gridSteps_congr, fun r c r' c' => max_le (cycleDist_le r r') (cycleDist_le c c'), 0, 0, 8, 0, rfl⟩

end Sys2Proof.Proofs.CaEngine

/-! Proofs of the statements about the key schedule (42_key_schedule.md rules R163 to R167): the ones of a grid and the cells
of a template counted by row and column, so that a seed's population follows from how often its template holds each kind of
cell; and a schedule as iterated generations. -/

namespace Sys2Proof.Proofs.KeySchedule

open Sys2Proof.Machine Sys2Proof.Laws Sys2Proof.Proofs.CaEngine

/-! Populations as sums over the cells (R8, R9) -/

theorem countP_finRange_eq_sum {n : Nat} (p : Fin n → Bool) : (List.finRange n).countP p = ∑ i, (p i).toNat := by
  rw [← Fin.countP_eq_countP_map_finRange, Fin.countP, Fin.sum_eq_sum_map_finRange, Fin.sum_univ_def]

theorem popcount_eq_sum {n : Nat} (v : BitVec n) : popcount v = ∑ i : Fin n, (v.getLsbD i.val).toNat := by
  rw [popcount, ← List.map_coe_finRange_eq_range, List.countP_map]
  exact countP_finRange_eq_sum _

/-- A sum over the cells is the sum over their flat indices `16·r + c` (R61). -/
theorem sum_cells_eq_sum_flat (f : Fin 256 → Nat) :
    ∑ p : Fin 16 × Fin 16, f ⟨16 * p.1.val + p.2.val, by omega⟩ = ∑ i, f i := by
  rw [← Equiv.sum_comp (finProdFinEquiv (m := 16) (n := 16)) f]
  exact Finset.sum_congr rfl fun p _ => congrArg f (Fin.ext (Nat.add_comm _ _))

theorem popcount_eq_sum_cell (g : Grid) : popcount g = ∑ p : Fin 16 × Fin 16, (cell g p.1 p.2).toNat :=
  calc popcount g
    _ = ∑ i : Fin 256, (g.getLsbD i.val).toNat := popcount_eq_sum g
    _ = ∑ i : Fin 256, (g.getLsbD i.rev.val).toNat := (Equiv.sum_comp Fin.revPerm _).symm
    _ = ∑ i : Fin 256, (g.getMsbD i.val).toNat := by simp only [BitVec.getLsbD_rev]
    _ = ∑ p : Fin 16 × Fin 16, (cell g p.1 p.2).toNat := (sum_cells_eq_sum_flat fun i => (g.getMsbD i.val).toNat).symm

/-- How often a template's flat list holds a given cell, counted by row and column. -/
theorem count_toList_eq_sum (t : Template) (x : TemplateCell) :
    t.toList.count x = ∑ p : Fin 16 × Fin 16, (templateCell t p.1 p.2 == x).toNat := by
  have hlist : t.toList = (List.finRange 256).map (t[·]) := by
    rw [← List.ofFn_eq_map, ← Vector.toList_ofFn]
    exact congrArg _ (Vector.ext fun i hi => by simp)
  rw [hlist, List.count, List.countP_map, countP_finRange_eq_sum]
  exact (sum_cells_eq_sum_flat fun i => (t[i] == x).toNat).symm

/-! Seeding (R163, R164) -/

/-- A cell is seeded with 1 if it is the constant one, or the cell of a key bit that is set. -/
theorem toNat_seedCell (k : Word) (x : TemplateCell) :
    (seedCell k x).toNat = (x == .one).toNat + ∑ i : Fin 32, (x == .keyBit i).toNat * (k.getLsbD i.val).toNat := by
  cases x with
  | zero => simp [seedCell, beq_eq_decide]
  | one => simp [seedCell]
  | keyBit j =>
    rw [Fintype.sum_eq_single j fun i hne => by simp [hne.symm]]
    simp [seedCell]

/-- The population of any template's seed, from how often each kind of cell occurs in it. -/
theorem popcount_seed (t : Template) (k : Word) : popcount (seed t k) =
    t.toList.count .one + ∑ i : Fin 32, t.toList.count (.keyBit i) * (k.getLsbD i.val).toNat := by
  simp only [popcount_eq_sum_cell, cell_seed, toNat_seedCell, count_toList_eq_sum, Finset.sum_add_distrib, Finset.sum_mul]
  rw [Finset.sum_comm]

/-- R161(a) and (b) alone give the population of R164. -/
theorem popcount_seed_of_balanced {t : Template} (hone : templateConstantsBalanced t = true)
    (hkey : templateKeyBitsBalanced t = true) (k : Word) : popcount (seed t k) = 64 + 4 * popcount k := by
  simp only [templateConstantsBalanced, Bool.and_eq_true, decide_eq_true_eq] at hone
  obtain ⟨-, hone⟩ := hone
  simp only [templateKeyBitsBalanced, List.all_eq_true, List.mem_finRange, forall_const, decide_eq_true_eq] at hkey
  rw [popcount_seed, hone, popcount_eq_sum, Finset.mul_sum]
  simp only [hkey]

/-- Settles O48: the cells of a seed one by one, and its population from the counts of R161(a) and (b), which each of the two
templates has. -/
theorem seedPopulation : Obligations.SeedPopulation := by
  refine ⟨fun t k r c => ?_, fun tT tS k hwf => ?_⟩
  · rw [cell_seed]
    cases templateCell t r c <;> rfl
  · simp only [templateWf, Bool.and_eq_true] at hwf
    obtain ⟨⟨⟨⟨⟨⟨hconstT, hconstS⟩, hkeyT⟩, hkeyS⟩, -⟩, -⟩, -⟩ := hwf
    exact ⟨popcount_seed_of_balanced hconstT hkeyT k, popcount_seed_of_balanced hconstS hkeyS k⟩

/-! The schedule (R165, R167) -/

/-- `n` advances are `11·n` generations. -/
theorem advances_eq (n : Nat) (g : Grid) : advances n g = gridSteps (11 * n) g := by
  induction n with
  | zero => rfl
  | succ n ih => rw [advances, ih, advance_eq, gridSteps_add, Nat.mul_succ, Nat.add_comm]

/-- Settles O49: a schedule is defined by its advances, which are 11 generations each. -/
theorem scheduleClosedForm : Obligations.ScheduleClosedForm := fun _ i =>
  ⟨advances_eq (i + 1) _, advances_eq (i + 1) _, rfl, rfl⟩

end Sys2Proof.Proofs.KeySchedule

/-! Proofs of the statements about the scrambler (43_scrambler.md rules R201 to R211). A sweep is a product of transpositions
of the positions, and the descending sweep is its inverse; so V reads cell `(r, c)` at `(σ r, τ c)`, and contract, laws and
shifts follow cell by cell. The indices are one function, of a row or a column of T, and it is injective in the bits it
reads. -/

namespace Sys2Proof.Proofs.Scrambler

open Sys2Proof.Machine Sys2Proof.Laws Sys2Proof.Proofs.CaEngine Sys2Proof.Proofs.KeySchedule

/-! Sweeps as permutations of the positions (R205, R206, R208) -/

/-- The product of the transpositions `(j, idx j)` for `j` along `js`. -/
def sweepPerm (idx : Fin 16 → Fin 16) (js : List (Fin 16)) : Equiv.Perm (Fin 16) :=
  (js.map fun j => Equiv.swap j (idx j)).prod

theorem sweepPerm_cons (idx : Fin 16 → Fin 16) (j : Fin 16) (js : List (Fin 16)) (k : Fin 16) :
    sweepPerm idx (j :: js) k = Equiv.swap j (idx j) (sweepPerm idx js k) := by
  rw [sweepPerm, List.map_cons, List.prod_cons, Equiv.Perm.mul_apply, sweepPerm]

/-- A transposition is its own inverse, so the swaps in reverse order undo the sweep. -/
theorem sweepPerm_reverse (idx : Fin 16 → Fin 16) (js : List (Fin 16)) :
    sweepPerm idx js.reverse = (sweepPerm idx js)⁻¹ := by
  simp only [sweepPerm, List.prod_inv_reverse, List.map_map, Function.comp_def, Equiv.swap_inv, List.map_reverse]

theorem sweepPerm_descending (idx : Fin 16 → Fin 16) : sweepPerm idx descending = (sweepPerm idx ascending).symm :=
  sweepPerm_reverse idx ascending

theorem cell_rowSweep (idx : Fin 16 → Fin 16) (js : List (Fin 16)) (g : Grid) (r c : Fin 16) :
    cell (rowSweep idx js g) r c = cell g (sweepPerm idx js r) c := by
  induction js generalizing g with
  | nil => rfl
  | cons j js ih => rw [rowSweep, ih, cell_swapRows_eq_swap, sweepPerm_cons]

theorem cell_colSweep (idx : Fin 16 → Fin 16) (js : List (Fin 16)) (g : Grid) (r c : Fin 16) :
    cell (colSweep idx js g) r c = cell g r (sweepPerm idx js c) := by
  induction js generalizing g with
  | nil => rfl
  | cons j js ih => rw [colSweep, ih, cell_swapCols_eq_swap, sweepPerm_cons]

theorem labelSweep_apply (idx : Fin 16 → Fin 16) (js : List (Fin 16)) (lab : Fin 16 → Fin 16) (k : Fin 16) :
    labelSweep idx js lab k = lab (sweepPerm idx js k) := by
  induction js generalizing lab with
  | nil => rfl
  | cons j js ih => rw [labelSweep, ih, sweepPerm_cons, Equiv.swap_apply_def, apply_ite lab, apply_ite lab]

theorem sigma_eq_sweepPerm (t : Grid) : sigma t = sweepPerm (rowidx t) ascending :=
  funext fun k => labelSweep_apply (rowidx t) ascending id k

theorem tau_eq_sweepPerm (t : Grid) : tau t = sweepPerm (colidx t) ascending :=
  funext fun k => labelSweep_apply (colidx t) ascending id k

theorem sigma_bijective (t : Grid) : Function.Bijective (sigma t) :=
  sigma_eq_sweepPerm t ▸ Equiv.bijective _

theorem tau_bijective (t : Grid) : Function.Bijective (tau t) :=
  tau_eq_sweepPerm t ▸ Equiv.bijective _

/-! The two passes cell by cell (R207, R208) -/

theorem cell_scramble (p t : Grid) (r c : Fin 16) : cell (scramble p t) r c = cell p (sigma t r) (tau t c) := by
  rw [scramble, cell_colSweep, cell_rowSweep, sigma_eq_sweepPerm, tau_eq_sweepPerm]

theorem cell_unscramble (e t : Grid) (r c : Fin 16) :
    cell (unscramble e t) r c =
      cell e ((sweepPerm (rowidx t) ascending).symm r) ((sweepPerm (colidx t) ascending).symm c) := by
  rw [unscramble, cell_rowSweep, cell_colSweep, sweepPerm_descending, sweepPerm_descending]

theorem unscramble_scramble (p t : Grid) : unscramble (scramble p t) t = p :=
  grid_ext fun r c => by
    rw [cell_unscramble, cell_scramble, sigma_eq_sweepPerm, tau_eq_sweepPerm, Equiv.apply_symm_apply,
      Equiv.apply_symm_apply]

theorem scramble_unscramble (e t : Grid) : scramble (unscramble e t) t = e :=
  grid_ext fun r c => by
    rw [cell_scramble, cell_unscramble, sigma_eq_sweepPerm, tau_eq_sweepPerm, Equiv.symm_apply_apply,
      Equiv.symm_apply_apply]

/-- Settles O50: the descending sweeps read through the inverse permutations. -/
theorem unscrambleUndoesScramble : Obligations.UnscrambleUndoesScramble := fun p t =>
  ⟨unscramble_scramble p t, scramble_unscramble p t⟩

/-! Consequences of R208 -/

theorem popcount_scramble (p t : Grid) : popcount (scramble p t) = popcount p := by
  simp only [popcount_eq_sum_cell, cell_scramble]
  exact (Equiv.prodCongr (.ofBijective _ (sigma_bijective t)) (.ofBijective _ (tau_bijective t))).sum_comp
    fun q => (cell p q.1 q.2).toNat

theorem scramble_gxor (a b t : Grid) : scramble (gxor a b) t = gxor (scramble a t) (scramble b t) :=
  grid_ext fun r c => by rw [cell_scramble, cell_gxor, cell_gxor, cell_scramble, cell_scramble]

@[simp] theorem scramble_ZERO (t : Grid) : scramble Grid.ZERO t = Grid.ZERO :=
  grid_ext fun r c => by rw [cell_scramble, cell_ZERO, cell_ZERO]

@[simp] theorem scramble_ONES (t : Grid) : scramble Grid.ONES t = Grid.ONES :=
  grid_ext fun r c => by rw [cell_scramble, cell_ONES, cell_ONES]

theorem rowSweep_colSweep (ri ci : Fin 16 → Fin 16) (js ks : List (Fin 16)) (g : Grid) :
    rowSweep ri js (colSweep ci ks g) = colSweep ci ks (rowSweep ri js g) :=
  grid_ext fun r c => by rw [cell_rowSweep, cell_colSweep, cell_colSweep, cell_rowSweep]

/-! The indices (R201, R202): four bits of a row or column, four apart, the first the most significant. -/

/-- The number whose bits are those of the line `f` at `a`, `a + 4`, `a + 8`, `a + 12`. -/
def strideIndex (f : Fin 16 → Bool) (a : Nat) : Fin 16 :=
  Fin.ofNat 16 (msbFirst 4 fun i => f (Fin.ofNat 16 (a + 4 * i))).toNat

theorem rowidx_eq_strideIndex (t : Grid) (j : Fin 16) : rowidx t j = strideIndex (cell t j) (3 * j.val % 4) := rfl

theorem colidx_eq_strideIndex (t : Grid) (j : Fin 16) :
    colidx t j = strideIndex (fun r => cell t r j) ((3 * j.val + 3) % 4) := rfl

theorem val_strideIndex_eq_toNat (f : Fin 16 → Bool) (a : Nat) :
    (strideIndex f a).val = (msbFirst 4 fun i => f (Fin.ofNat 16 (a + 4 * i))).toNat := by
  rw [strideIndex, Fin.val_ofNat, Nat.mod_eq_of_lt (BitVec.isLt _)]

theorem ofNat_val_add (a : Fin 16) (n : Nat) : Fin.ofNat 16 (a.val + n) = a + Fin.ofNat 16 n := by
  apply Fin.ext
  rw [Fin.val_add, Fin.val_ofNat, Fin.val_ofNat, Nat.add_mod_mod]

theorem val_strideIndex (f : Fin 16 → Bool) {n : Nat} (a : Fin 16) (ha : a.val = n) :
    (strideIndex f n).val =
      8 * (f a).toNat + 4 * (f (a + 4)).toNat + 2 * (f (a + 8)).toNat + (f (a + 12)).toNat := by
  subst ha
  rw [val_strideIndex_eq_toNat, toNat_msbFirst]
  have h0 : Fin.ofNat 16 (a.val + 4 * 0) = a := (ofNat_val_add a 0).trans (add_zero a)
  have h1 : Fin.ofNat 16 (a.val + 4 * 1) = a + 4 := ofNat_val_add a 4
  have h2 : Fin.ofNat 16 (a.val + 4 * 2) = a + 8 := ofNat_val_add a 8
  have h3 : Fin.ofNat 16 (a.val + 4 * 3) = a + 12 := ofNat_val_add a 12
  simp only [msbNat, h0, h1, h2, h3]
  omega

/-- The bits `a`, `a + 4`, `a + 8`, `a + 12` are those whose place is `a` modulo 4, and an index determines them. -/
theorem strideIndex_eq_iff {a : Nat} (ha : a < 4) (f g : Fin 16 → Bool) :
    strideIndex f a = strideIndex g a ↔ ∀ k : Fin 16, k.val % 4 = a → f k = g k := by
  rw [Fin.ext_iff, val_strideIndex_eq_toNat, val_strideIndex_eq_toNat, ← BitVec.toNat_eq]
  constructor
  · intro hbits k hk
    have hi : k.val / 4 < 4 := by omega
    have hplace : Fin.ofNat 16 (a + 4 * (k.val / 4)) = k := by
      apply Fin.ext
      rw [Fin.val_ofNat]
      omega
    have hbit := congrArg (·.getMsbD (k.val / 4)) hbits
    simpa only [getMsbD_msbFirst 4 _ _ hi, hplace] using hbit
  · intro hfg
    refine BitVec.eq_of_getMsbD_eq fun i hi => ?_
    rw [getMsbD_msbFirst 4 _ i hi, getMsbD_msbFirst 4 _ i hi]
    refine hfg _ ?_
    rw [Fin.val_ofNat]
    omega

/-- An index of a row is determined by the cells it reads, and determines them (R209). -/
theorem rowidx_eq_iff (t t' : Grid) (r : Fin 16) :
    rowidx t r = rowidx t' r ↔ ∀ c, rowidxReads r c = true → cell t r c = cell t' r c := by
  simp only [rowidx_eq_strideIndex, strideIndex_eq_iff (Nat.mod_lt _ (by omega)), rowidxReads, decide_eq_true_eq]

/-- The same of an index of a column. -/
theorem colidx_eq_iff (t t' : Grid) (c : Fin 16) :
    colidx t c = colidx t' c ↔ ∀ r, colidxReads r c = true → cell t r c = cell t' r c := by
  simp only [colidx_eq_strideIndex, strideIndex_eq_iff (Nat.mod_lt _ (by omega)), colidxReads, decide_eq_true_eq]

theorem cell_setCell_not (t : Grid) (r c : Fin 16) : cell (setCell t r c (!cell t r c)) r c ≠ cell t r c := by
  simp

theorem rowidx_setCell_not (t : Grid) (r c : Fin 16) (hread : rowidxReads r c = true) :
    rowidx (setCell t r c (!cell t r c)) r ≠ rowidx t r := fun h =>
  cell_setCell_not t r c ((rowidx_eq_iff _ _ r).mp h c hread)

theorem colidx_setCell_not (t : Grid) (r c : Fin 16) (hread : colidxReads r c = true) :
    colidx (setCell t r c (!cell t r c)) c ≠ colidx t c := fun h =>
  cell_setCell_not t r c ((colidx_eq_iff _ _ c).mp h r hread)

theorem not_rowidxReads_and_colidxReads (r c : Fin 16) : ¬(rowidxReads r c = true ∧ colidxReads r c = true) := by
  simp only [rowidxReads, colidxReads, decide_eq_true_eq]
  omega

/-- Of the 16 cells of a row, its own index reads four and four of the columns' indices read one each. -/
theorem length_readCells_of_row : ∀ r : Fin 16,
    ((List.finRange 16).filter fun c => rowidxReads r c || colidxReads r c).length = 8 := by
  decide

theorem length_readCells :
    ((List.finRange 16).flatMap fun r =>
      (List.finRange 16).filter fun c => rowidxReads r c || colidxReads r c).length = 128 := by
  simp only [List.length_flatMap, length_readCells_of_row, List.map_const', List.sum_replicate, List.length_finRange]
  rfl

theorem scramble_congr {p t t' : Grid}
    (hread : ∀ r c, rowidxReads r c = true ∨ colidxReads r c = true → cell t r c = cell t' r c) :
    scramble p t = scramble p t' := by
  have hrow : rowidx t = rowidx t' := funext fun r => (rowidx_eq_iff t t' r).mpr fun c h => hread r c (.inl h)
  have hcol : colidx t = colidx t' := funext fun c => (colidx_eq_iff t t' c).mpr fun r h => hread r c (.inr h)
  rw [scramble, scramble, hrow, hcol]

/-- Settles O52: an index is its four bits, so it changes with each of them and with nothing else; no cell is read twice since
`r ≡ 3c + 3` and `c ≡ 3r` modulo 4 would give `r ≡ r + 3`. -/
theorem indicesReadDisjointCells : Obligations.IndicesReadDisjointCells :=
  ⟨fun t j a ha => val_strideIndex (cell t j) a ha, fun t j b hb => val_strideIndex (fun r => cell t r j) b hb,
    not_rowidxReads_and_colidxReads, length_readCells, rowidx_setCell_not, colidx_setCell_not, fun _ _ _ => scramble_congr⟩

/-! Equal indices (R211) -/

@[simp] theorem strideIndex_false (a : Nat) : strideIndex (fun _ => false) a = 0 := by
  rw [Fin.ext_iff, val_strideIndex_eq_toNat, toNat_msbFirst]
  rfl

@[simp] theorem strideIndex_true (a : Nat) : strideIndex (fun _ => true) a = 15 := by
  rw [Fin.ext_iff, val_strideIndex_eq_toNat, toNat_msbFirst]
  rfl

theorem rowidx_ZERO (j : Fin 16) : rowidx Grid.ZERO j = 0 := by
  rw [rowidx_eq_strideIndex, funext (cell_ZERO j), strideIndex_false]

theorem rowidx_ONES (j : Fin 16) : rowidx Grid.ONES j = 15 := by
  rw [rowidx_eq_strideIndex, funext (cell_ONES j), strideIndex_true]

theorem colidx_ZERO (j : Fin 16) : colidx Grid.ZERO j = 0 := by
  rw [colidx_eq_strideIndex, funext fun r => cell_ZERO r j, strideIndex_false]

theorem colidx_ONES (j : Fin 16) : colidx Grid.ONES j = 15 := by
  rw [colidx_eq_strideIndex, funext fun r => cell_ONES r j, strideIndex_true]

/-- Swap `j` with the common position drops there the label that position carries, `j - 1`, and picks up `j`. -/
theorem labelSweep_of_index_eq {idx : Fin 16 → Fin 16} (h : (∀ j, idx j = 0) ∨ (∀ j, idx j = 15)) (k : Fin 16) :
    labelSweep idx ascending id k = k - 1 := by
  obtain h | h := h
  · rw [funext h]
    decide +revert
  · rw [funext h]
    decide +revert

theorem sigma_of_rowidx_eq {t : Grid} (h : (∀ j, rowidx t j = 0) ∨ (∀ j, rowidx t j = 15)) (k : Fin 16) :
    sigma t k = k - 1 := labelSweep_of_index_eq h k

theorem tau_of_colidx_eq {t : Grid} (h : (∀ j, colidx t j = 0) ∨ (∀ j, colidx t j = 15)) (k : Fin 16) :
    tau t k = k - 1 := labelSweep_of_index_eq h k

theorem cell_torusShift (a b : Fin 16) (g : Grid) (r c : Fin 16) :
    cell (torusShift a b g) r c = cell g (r - a) (c - b) := by
  rw [torusShift, cell_ofCells]

theorem torusShift_torusShift (a b a' b' : Fin 16) (g : Grid) :
    torusShift a b (torusShift a' b' g) = torusShift (a + a') (b + b') g :=
  grid_ext fun r c => by rw [cell_torusShift, cell_torusShift, cell_torusShift, sub_sub, sub_sub]

theorem scramble_eq_torusShift {t : Grid} (hrow : (∀ j, rowidx t j = 0) ∨ (∀ j, rowidx t j = 15))
    (hcol : (∀ j, colidx t j = 0) ∨ (∀ j, colidx t j = 15)) (p : Grid) : scramble p t = torusShift 1 1 p :=
  grid_ext fun r c => by
    rw [cell_scramble, sigma_of_rowidx_eq hrow, tau_of_colidx_eq hcol, cell_torusShift]

theorem scramble_by_ZERO (p : Grid) : scramble p Grid.ZERO = torusShift 1 1 p :=
  scramble_eq_torusShift (.inl rowidx_ZERO) (.inl colidx_ZERO) p

theorem scramble_by_ONES (p : Grid) : scramble p Grid.ONES = torusShift 1 1 p :=
  scramble_eq_torusShift (.inr rowidx_ONES) (.inr colidx_ONES) p

theorem scramble_scramble_by_ZERO (p : Grid) : scramble (scramble p Grid.ZERO) Grid.ZERO = torusShift 2 2 p := by
  rw [scramble_by_ZERO, scramble_by_ZERO, torusShift_torusShift]
  rfl

/-- The (2,2) shift takes the cell `(0, 0)` to `(2, 2)`. -/
theorem torusShift_two_single_ne :
    torusShift 2 2 (setCell Grid.ZERO 0 0 true) ≠ setCell Grid.ZERO 0 0 true := by
  intro h
  have h22 := congrArg (cell · 2 2) h
  simp [cell_torusShift] at h22

/-- Settles O53: with equal indices σ and τ are the shift by one; the single cell `(0, 0)` is not where it was after two. -/
theorem deadStreamShifts : Obligations.DeadStreamShifts :=
  ⟨fun _ => sigma_of_rowidx_eq, fun _ => tau_of_colidx_eq, fun p => ⟨scramble_by_ZERO p, scramble_by_ONES p⟩,
    scramble_scramble_by_ZERO, setCell Grid.ZERO 0 0 true,
    (scramble_scramble_by_ZERO _).trans_ne torusShift_two_single_ne⟩

/-! The order within a sweep (R208) -/

/-- With T = `ZERO` the ascending row sweep moves row 0 to row 1 and the descending one, its inverse, moves it to row 15. -/
theorem rowSweep_descending_ne_ascending :
    rowSweep (rowidx Grid.ZERO) descending (setCell Grid.ZERO 0 0 true) ≠
      rowSweep (rowidx Grid.ZERO) ascending (setCell Grid.ZERO 0 0 true) := by
  have hasc (k : Fin 16) : sweepPerm (rowidx Grid.ZERO) ascending k = k - 1 := by
    rw [← sigma_eq_sweepPerm, sigma_of_rowidx_eq (.inl rowidx_ZERO)]
  have hdesc : sweepPerm (rowidx Grid.ZERO) descending 1 = 2 := by
    rw [sweepPerm_descending, Equiv.symm_apply_eq, hasc]
    rfl
  intro h
  have h10 := congrArg (cell · 1 0) h
  simp [cell_rowSweep, hasc, hdesc] at h10

/-- Settles O51: each clause from V reading cell `(r, c)` at `(σ r, τ c)`; T = `ZERO` is one whose row sweep has an order. -/
theorem scrambleIsCellPermutation : Obligations.ScrambleIsCellPermutation :=
  ⟨⟨_, _, rowSweep_descending_ne_ascending⟩, fun t =>
    ⟨sigma_bijective t, tau_bijective t, fun p => cell_scramble p t, fun p => popcount_scramble p t,
      fun a b => scramble_gxor a b t, scramble_ZERO t, scramble_ONES t, fun p => rowSweep_colSweep _ _ _ _ p⟩⟩

end Sys2Proof.Proofs.Scrambler

/-! Proofs of the statements about the block cipher (44_block_cipher.md rules R240 to R246). Each law is one of V joined with
one of XOR; the packing carries the round trip to frames, and the block step (45_framer_pipeline.md rule R275) carries it to two
engines. -/

namespace Sys2Proof.Proofs.BlockCipher

open Sys2Proof.Machine Sys2Proof.Laws Sys2Proof.Proofs.Effects Sys2Proof.Proofs.Packing Sys2Proof.Proofs.CaEngine
  Sys2Proof.Proofs.Scrambler

/-! The round trip (R243, R244) -/

theorem decBlock_encBlock (p t s : Grid) : decBlock (encBlock p t s) t s = p := by
  rw [decBlock, encBlock, unscramble_scramble, gxor_gxor_cancel]

theorem encBlock_decBlock (e t s : Grid) : encBlock (decBlock e t s) t s = e := by
  rw [encBlock, decBlock, gxor_gxor_cancel, scramble_unscramble]

theorem decFrame_encFrame (b : Frame) (t s : Grid) : decFrame (encFrame b t s) t s = b := by
  rw [decFrame, encFrame, unpack_pack, decBlock_encBlock, pack_unpack]

theorem encFrame_decFrame (b : Frame) (t s : Grid) : encFrame (decFrame b t s) t s = b := by
  rw [encFrame, decFrame, unpack_pack, encBlock_decBlock, pack_unpack]

/-- Settles O54: V and its inverse cancel, S cancels against itself, and between the frames `unpack` undoes `pack`. -/
theorem blockRoundTrip : Obligations.BlockRoundTrip := fun t s =>
  ⟨fun p => ⟨decBlock_encBlock p t s, encBlock_decBlock p t s⟩,
    fun b => ⟨decFrame_encFrame b t s, encFrame_decFrame b t s⟩⟩

/-! Structure (R246) -/

theorem popcount_encBlock (p t s : Grid) : popcount (encBlock p t s) = popcount (gxor p s) :=
  popcount_scramble (gxor p s) t

/-- V is linear, and S enters the two sides once each. -/
theorem encBlock_gxor (p q t s : Grid) : encBlock (gxor p q) t s = gxor (encBlock p t s) (scramble q t) := by
  have hswap : gxor (gxor p q) s = gxor (gxor p s) q := by
    rw [gxor_assoc, gxor_comm q s, gxor_assoc]
  rw [encBlock, encBlock, hswap, scramble_gxor]

theorem encBlock_bijective (t s : Grid) : Function.Bijective fun p => encBlock p t s :=
  Function.bijective_iff_has_inverse.mpr
    ⟨fun e => decBlock e t s, fun p => decBlock_encBlock p t s, fun e => encBlock_decBlock e t s⟩

/-- Settles O55: weight and linearity are V's, and the block decryption is the inverse. -/
theorem blockStructure : Obligations.BlockStructure := fun t s =>
  ⟨fun p => popcount_encBlock p t s, fun p q => encBlock_gxor p q t s, encBlock_bijective t s⟩

/-! The block step of an engine (R268, R275) -/

/-- The byte that fills the frame, with nothing pending in an open session, has the effect of the block step. -/
theorem exec_pushByte_block {b : Byte} {s : State} (ho : s.outCnt = 0) (hp : s.phase = .stream) (hn : s.inCnt = 31) :
    exec (.pushByte b) s = .next ((Effect.block b).apply s) :=
  have hphase : s.phase ≠ .error := by simp [hp]
  (Does.applied (held_of_drained ho) (ignored_of_phase hphase) (.block hp hn)).exec_eq

@[simp] theorem block_gt (b : Byte) (s : State) : ((Effect.block b).apply s).gt = advance s.gt := rfl

@[simp] theorem block_gs (b : Byte) (s : State) : ((Effect.block b).apply s).gs = advance s.gs := rfl

theorem block_inBuf {s : State} (hn : s.inCnt = 31) (b : Byte) :
    ((Effect.block b).apply s).inBuf = s.inBuf.set 31 b := by
  simp [Effect.apply, hn]

/-- The frame put out is the transform, in the session's mode, of the frame taken in, under the grids the step leaves. -/
theorem block_outBuf (b : Byte) (s : State) :
    ((Effect.block b).apply s).outBuf =
      blockOutput s.mode ((Effect.block b).apply s).inBuf (advance s.gt) (advance s.gs) := rfl

/-- Settles O56: both engines advance the same grids, so the decrypting one applies `decFrame` under the subkeys of the
encrypting one to the frame that `encFrame` gave. -/
theorem enginesUndoEachOther : Obligations.EnginesUndoEachOther := by
  intro s d s' d' b c hso hsp hsm hsn hs' hdo hdp hdm hdn hgt hgs hframe hd'
  obtain rfl : (Effect.block b).apply s = s' := Host.Outcome.next.inj ((exec_pushByte_block hso hsp hsn).symm.trans hs')
  obtain rfl : (Effect.block c).apply d = d' := Host.Outcome.next.inj ((exec_pushByte_block hdo hdp hdn).symm.trans hd')
  refine ⟨?_, by rw [block_gt, block_gt, hgt], by rw [block_gs, block_gs, hgs]⟩
  rw [block_outBuf, block_inBuf hdn, hframe, block_outBuf, hdm, hsm, hgt, hgs]
  exact decFrame_encFrame _ _ _

end Sys2Proof.Proofs.BlockCipher

/-! Proofs of the statements about the framer pipeline (45_framer_pipeline.md): each command's result, what the hold protects,
the phase moves and the schedule, all from the effect a command has. -/

namespace Sys2Proof.Proofs.FramerPipeline

open Sys2Proof.Machine Sys2Proof.Laws Sys2Proof.Claims Sys2Proof.Proofs.Effects Sys2Proof.Proofs.StateElements
  Sys2Proof.Proofs.CommandWord Sys2Proof.Proofs.CommandIssue Sys2Proof.Proofs.CaEngine Sys2Proof.Proofs.KeySchedule
  Sys2Proof.Proofs.BlockCipher

/-! The schedule (R278) -/

theorem onSchedule_openSession (m : Mode) (s : State) : onSchedule (openSession m s) s.key 0 := ⟨rfl, rfl, rfl⟩

/-- A block step goes one place on in the schedule (R275). -/
theorem onSchedule_block {s : State} {k : Word} {n : Nat} (h : onSchedule s k n) (b : Byte) :
    onSchedule ((Effect.block b).apply s) k (n + 1) := by
  obtain ⟨hgt, hgs, hcount⟩ := h
  refine ⟨?_, ?_, ?_⟩
  · rw [block_gt, hgt, advance_eq, gridSteps_add, Nat.mul_succ, Nat.add_comm]
  · rw [block_gs, hgs, advance_eq, gridSteps_add, Nat.mul_succ, Nat.add_comm]
  · rw [Effect.apply, respond_blkcnt, blockStep_blkcnt, storeInput_blkcnt, hcount, BitVec.ofNat_add]

/-- In an open session only the block step writes the grids, and nothing writes `KEY` (R278). -/
theorem scheduleFollowsKey_apply {i : Instr} {s : State} {e : Effect} (h : Does i s e) (hs : ScheduleFollowsKey s) :
    ScheduleFollowsKey (e.apply s) := by
  obtain _ | _ | ⟨-, -, ha⟩ := h
  · exact hs
  · exact hs
  cases ha with
  | startEnc | startDec => exact fun _ => ⟨0, onSchedule_openSession _ s⟩
  | block hp =>
    obtain ⟨n, hn⟩ := hs hp
    exact fun _ => ⟨n + 1, onSchedule_block hn _⟩
  | loadKey hp => exact fun hstream => nomatch hp.symm.trans hstream
  | reserved | loadKeyInSession | startEncNoKey | startEncInSession | startDecNoKey | startDecInSession | pushByteIdle
  | partialFrame | endStreamIdle | close | clear => nofun
  | nop | store | popEmpty | pop | readStatus | readT | readS | readBlkcnt => exact hs

/-- The grids are written from `KEY`, from their place in the open session's schedule, or cleared (R278). -/
theorem gridsOnASchedule_apply {i : Instr} {s : State} {e : Effect} (h : Does i s e) (hs : ScheduleFollowsKey s)
    (hg : GridsOnASchedule s) : GridsOnASchedule (e.apply s) := by
  obtain _ | _ | ⟨-, -, ha⟩ := h
  · exact hg
  · exact hg
  cases ha with
  | startEnc | startDec => exact .inl ⟨s.key, 0, onSchedule_openSession _ s⟩
  | block hp =>
    obtain ⟨n, hn⟩ := hs hp
    exact .inl ⟨s.key, n + 1, onSchedule_block hn _⟩
  | clear => exact .inr ⟨rfl, rfl, rfl⟩
  | _ => exact hg

/-- Settles O16: a stutter, a reset and every effect of a command keep the schedule. -/
theorem stepKeepsSchedule : Obligations.StepKeepsSchedule := by
  intro s t h
  obtain ⟨-, rfl⟩ | ⟨-, rfl⟩ | ⟨cmd, -, -, hexec⟩ := step_cases h
  · exact ⟨id, fun _ hg => hg⟩
  · exact ⟨fun _ => nofun, fun _ _ => .inr ⟨rfl, rfl, rfl⟩⟩
  · obtain ⟨e, he, rfl⟩ := exec_effect hexec
    exact ⟨scheduleFollowsKey_apply he, gridsOnASchedule_apply he⟩

/-! Held, ignored or completed (R260, R261) -/

theorem heldSet_iff {i : Instr} : HeldSet i ↔ inHeldSet i = true := by
  cases i <;> simp [HeldSet, inHeldSet]

theorem errorSet_iff {i : Instr} : ErrorSet i ↔ inErrorSet i = true := by
  cases i <;> simp [ErrorSet, inErrorSet]

theorem held_iff {i : Instr} {s : State} : held i s = true ↔ HeldSet i ∧ s.outCnt ≠ 0 := by
  rw [held_eq_true, heldSet_iff]

theorem ignored_iff {i : Instr} {s : State} : ignored i s = true ↔ s.phase = .error ∧ ¬ ErrorSet i := by
  rw [ignored_eq_true, errorSet_iff, Bool.not_eq_true]

/-- Settles O10: the model's two tests are the rule's sets, and what passes the hold is accepted. -/
theorem commandHeldIgnoredOrCompleted : Obligations.CommandHeldIgnoredOrCompleted := by
  intro i s
  rw [← held_iff, Bool.not_eq_true]
  refine ⟨fun hh => (Does.held hh).exec_eq, fun hh hp hset => (Does.ignored hh (ignored_iff.mpr ⟨hp, hset⟩)).exec_eq,
    fun hh => ?_⟩
  obtain ⟨t, v, hexec, hqueue, hresp⟩ := exists_exec_accepted hh
  exact ⟨t, v, hexec, hresp, hqueue⟩

/-- Settles O14: a step stops only where an invariant is broken, and the invariants hold in every reachable state; they do
not read the host's queue. -/
theorem reachableStatesNeverStop : Obligations.ReachableStatesNeverStop := by
  intro s h
  have hinv : invariantsHold s = true := invariantsHold_of_reachable h
  obtain ⟨-, hfault, -⟩ := brokenInvariantsFault
  refine ⟨(step_stops s).resolve_right fun ⟨_, hbroken⟩ => Bool.false_ne_true (hbroken.symm.trans hinv), fun i r hr => ?_⟩
  exact Bool.false_ne_true ((hfault _ r hr).symm.trans hinv)

/-! What the hold protects (R261) -/

theorem outCnt_le_apply {i : Instr} {s : State} {e : Effect} (h : Does i s e) (hpop : i ≠ .popByte) (hclear : i ≠ .clear) :
    s.outCnt ≤ (e.apply s).outCnt := by
  obtain _ | _ | ⟨-, -, ha⟩ := h
  · exact le_rfl
  · exact le_rfl
  cases ha with
  | block | readT | readS => exact Fin.le_last _
  | pop => exact absurd rfl hpop
  | clear => exact absurd rfl hclear
  | _ => exact le_rfl

/-- With output pending every command that would fill the output frame is held, but `CLEAR`. -/
theorem apply_outBuf_of_pending {i : Instr} {s : State} {e : Effect} (h : Does i s e) (ho : s.outCnt ≠ 0)
    (hclear : i ≠ .clear) : (e.apply s).outBuf = s.outBuf := by
  obtain _ | _ | ⟨hh, -, ha⟩ := h
  · rfl
  · rfl
  cases ha with
  | block | readT | readS => exact nomatch hh.symm.trans (held_eq_true.mpr ⟨rfl, ho⟩)
  | clear => exact absurd rfl hclear
  | _ => rfl

/-- Settles O32: the hold's own test, and of the effects that pass it, which lower `OUT_CNT` and which write `OUT_BUF`. -/
theorem pendingOutputIsProtected : Obligations.PendingOutputIsProtected := by
  intro i s
  refine ⟨fun hset ho => (Does.held (held_iff.mpr ⟨hset, ho⟩)).exec_eq, fun t h hlt => ?_, ?_, fun t ho hclear h => ?_⟩
  · obtain ⟨e, he, rfl⟩ := exec_effect h
    by_contra hne
    obtain ⟨hpop, hclear⟩ := not_or.mp hne
    exact absurd hlt (outCnt_le_apply he hpop hclear).not_gt
  · rintro (rfl | rfl)
    · exact held_of_not_inHeldSet rfl
    · exact held_of_not_inHeldSet rfl
  · obtain ⟨e, he, rfl⟩ := exec_effect h
    exact apply_outBuf_of_pending he ho hclear

/-- Settles O33: of the effects a command can have, those that write `PHASE` and the tests they passed. -/
theorem phaseMoves : Obligations.PhaseMoves := by
  intro i s t h hne
  obtain ⟨e, he, rfl⟩ := exec_effect h
  obtain _ | _ | ⟨-, -, ha⟩ := he
  · exact absurd rfl hne
  · exact absurd rfl hne
  cases ha with
  | startEnc hp hk => exact .inl ⟨hp, rfl, hk, .inl rfl⟩
  | startDec hp hk => exact .inl ⟨hp, rfl, hk, .inr rfl⟩
  | close hp hn => exact .inr (.inl ⟨hp, rfl, hn, rfl⟩)
  | reserved _ hp => exact .inr (.inr (.inl ⟨hp, rfl, raiseError_err_ne_noError (by decide)⟩))
  | loadKeyInSession hp | startEncNoKey hp | startEncInSession hp | startDecNoKey hp | startDecInSession hp
  | pushByteIdle hp | partialFrame hp | endStreamIdle hp =>
    exact .inr (.inr (.inl ⟨by rw [hp]; decide, rfl, raiseError_err_ne_noError (by decide)⟩))
  | clear => exact .inr (.inr (.inr ⟨rfl, rfl⟩))
  | _ => exact absurd rfl hne

/-! The ways a command goes, by its class (R260) -/

section

variable {i : Instr} {s : State} {e : Effect}

/-- A command in `HELD_SET` with output pending. -/
theorem exec_of_pending (hset : inHeldSet i = true) (ho : s.outCnt ≠ 0) : exec i s = .next s :=
  (Does.held (held_eq_true.mpr ⟨hset, ho⟩)).exec_eq

/-- A command outside `ERROR_SET`, in phase `ERROR` with no output pending. -/
theorem exec_of_error (ho : s.outCnt = 0) (hp : s.phase = .error) (hset : inErrorSet i = false) :
    exec i s = .next (answered 0#32 s) :=
  (Does.ignored (held_of_drained ho) (ignored_eq_true.mpr ⟨hp, hset⟩)).exec_eq

/-- Outside phase `ERROR`, with no output pending, every command acts. -/
theorem does_of_drained (ho : s.outCnt = 0) (hp : s.phase ≠ .error) (ha : AppliesIn i s e) : Does i s e :=
  .applied (held_of_drained ho) (ignored_of_phase hp) ha

/-- The commands that always act: those of `ERROR_SET`, none of which is in `HELD_SET`. -/
theorem does_of_inErrorSet (hset : inErrorSet i = true) (ha : AppliesIn i s e) : Does i s e :=
  have hfree : inHeldSet i = false := by
    obtain rfl | rfl | rfl | rfl | rfl := errorSet_iff.mpr hset <;> rfl
  .applied (held_of_not_inHeldSet hfree) (ignored_of_inErrorSet hset) ha

theorem raiseError_eq_errored (code : ErrCode) (herr : s.err = .noError) : raiseError code s = errored code s := by
  rw [raiseError, if_pos herr, respond, errored]

/-- With no output pending and no error latched, a command that fails a test of its rule enters `ERROR` (R323). -/
theorem exec_eq_errored {code : ErrCode} (ho : s.outCnt = 0) (hp : s.phase ≠ .error) (herr : s.err = .noError)
    (ha : AppliesIn i s (.raise code)) : exec i s = .next (errored code s) := by
  rw [(does_of_drained ho hp ha).exec_eq, Effect.apply, raiseError_eq_errored code herr]

end

theorem phase_ne_error_of_stream {s : State} (hp : s.phase = .stream) : s.phase ≠ .error := by
  rw [hp]
  decide

theorem phase_ne_error_of_idle {s : State} (hp : s.phase = .idle) : s.phase ≠ .error := by
  rw [hp]
  decide

/-! Results of the commands -/

/-- Settles O17: `NOP` always acts, and its effect is the answer alone. -/
theorem nopResult : Obligations.NopResult := fun _ =>
  (does_of_inErrorSet rfl .nop).exec_eq

/-- Settles O25: `READ_BLKCNT` always acts, and its effect is the answer alone. -/
theorem readBlkcntResult : Obligations.ReadBlkcntResult := fun _ =>
  (does_of_inErrorSet rfl .readBlkcnt).exec_eq

/-- Settles O26: `CLEAR` always acts. -/
theorem clearResult : Obligations.ClearResult := fun _ =>
  (does_of_inErrorSet rfl .clear).exec_eq

/-- Settles O18, phase by phase. -/
theorem loadKeyResult : Obligations.LoadKeyResult := fun _ _ =>
  ⟨exec_of_pending rfl,
    fun ho hp => (does_of_drained ho (phase_ne_error_of_idle hp) (.loadKey hp)).exec_eq,
    fun ho hp herr => exec_eq_errored ho (phase_ne_error_of_stream hp) herr (.loadKeyInSession hp),
    fun ho hp => exec_of_error ho hp rfl⟩

/-- The command that opens a session in a mode (R267, R277). -/
def openingCommand : Mode → Instr
  | .encrypt => .startEnc
  | .decrypt => .startDec

theorem sets_of_openingCommand (m : Mode) :
    inHeldSet (openingCommand m) = true ∧ inErrorSet (openingCommand m) = false := by
  cases m <;> exact ⟨rfl, rfl⟩

section

variable {s : State} (m : Mode)

theorem appliesIn_openingCommand (hp : s.phase = .idle) (hk : s.keyv = true) :
    AppliesIn (openingCommand m) s (.start m) := by
  cases m with
  | encrypt => exact .startEnc hp hk
  | decrypt => exact .startDec hp hk

theorem appliesIn_openingCommand_of_no_key (hp : s.phase = .idle) (hk : s.keyv = false) :
    AppliesIn (openingCommand m) s (.raise .keyMissing) := by
  cases m with
  | encrypt => exact .startEncNoKey hp hk
  | decrypt => exact .startDecNoKey hp hk

theorem appliesIn_openingCommand_of_stream (hp : s.phase = .stream) :
    AppliesIn (openingCommand m) s (.raise .commandIllegal) := by
  cases m with
  | encrypt => exact .startEncInSession hp
  | decrypt => exact .startDecInSession hp

end

/-- Settles O19, phase by phase, for the command that opens a session in either mode. -/
theorem startResult : Obligations.StartResult := by
  intro i m s hi
  obtain rfl : i = openingCommand m := by
    obtain ⟨rfl, rfl⟩ | ⟨rfl, rfl⟩ := hi <;> rfl
  obtain ⟨hheld, hignored⟩ := sets_of_openingCommand m
  exact ⟨exec_of_pending hheld,
    fun ho hp hk => (does_of_drained ho (phase_ne_error_of_idle hp) (appliesIn_openingCommand m hp hk)).exec_eq,
    fun ho hp hk herr =>
      exec_eq_errored ho (phase_ne_error_of_idle hp) herr (appliesIn_openingCommand_of_no_key m hp hk),
    fun ho hp herr => exec_eq_errored ho (phase_ne_error_of_stream hp) herr (appliesIn_openingCommand_of_stream m hp),
    fun ho hp => exec_of_error ho hp hignored⟩

/-- Fewer than 31 bytes in `IN_BUF`: the next one does not fill the frame. -/
theorem inCnt_ne_last {s : State} (hn : s.inCnt.val < 31) : s.inCnt ≠ 31 :=
  fun hlast => absurd (congrArg Fin.val hlast) hn.ne

/-- A byte short of a full frame is stored, and counted without a wrap (R268). -/
theorem store_eq {s : State} (hn : s.inCnt.val < 31) (b : Byte) :
    (Effect.store b).apply s = answered 0#32 { s with
      inBuf := s.inBuf.set s.inCnt.val b, inCnt := ⟨s.inCnt.val + 1, by omega⟩ } := by
  have hcount : s.inCnt + 1 = ⟨s.inCnt.val + 1, by omega⟩ := Fin.ext (val_succ_of_ne_last (inCnt_ne_last hn))
  rw [Effect.apply, hcount]
  rfl

/-- The byte that fills the frame runs the block step on it (R275). -/
theorem block_eq {s : State} (hn : s.inCnt.val = 31) (b : Byte) :
    (Effect.block b).apply s = answered 0#32 { s with
      gt := gridSteps 11 s.gt
      gs := gridSteps 11 s.gs
      inBuf := s.inBuf.set 31 b
      inCnt := 0
      outBuf := blockOutput s.mode (s.inBuf.set 31 b) (gridSteps 11 s.gt) (gridSteps 11 s.gs)
      outCnt := 32
      blkcnt := s.blkcnt + 1#32 } := by
  have hstored : storeInput b s = { s with inBuf := s.inBuf.set 31 b } := by
    rw [storeInput]
    simp only [hn]
  rw [Effect.apply, hstored]
  rfl

/-- Settles O20, phase by phase; in a session the byte is stored, and the one that fills the frame runs the block step. -/
theorem pushByteResult : Obligations.PushByteResult := by
  intro b s
  refine ⟨exec_of_pending rfl, fun ho hp hn => ?_, fun ho hp hn => ?_,
    fun ho hp herr => exec_eq_errored ho (phase_ne_error_of_idle hp) herr (.pushByteIdle hp),
    fun ho hp => exec_of_error ho hp rfl⟩
  · rw [(does_of_drained ho (phase_ne_error_of_stream hp) (.store hp (inCnt_ne_last hn))).exec_eq, store_eq hn]
  · rw [exec_pushByte_block ho hp (Fin.ext hn), block_eq hn]
    cases s.mode <;> rfl

/-- The response of a pop as R85 writes it: bit 8 set over the byte. -/
theorem popResponse_eq : ∀ b : Byte, popResponse b = 0x100#32 ||| b.setWidth 32 := by
  decide +kernel

/-- With `k` bytes of the frame already read, the next output byte is `OUT_BUF[k]` (R30). -/
theorem nextOutput_eq {s : State} {k : Nat} (hk : k < 32) (hcnt : s.outCnt.val = 32 - k) : nextOutput s = s.outBuf[k] := by
  have hidx : (32 - s.outCnt.val) % 32 = k := by omega
  simp only [nextOutput, hidx]

theorem outCnt_ne_zero {s : State} {k : Nat} (hk : k < 32) (hcnt : s.outCnt.val = 32 - k) : s.outCnt ≠ 0 := by
  intro h0
  rw [h0, Fin.val_zero] at hcnt
  omega

/-- A pop with `k` bytes already read returns byte `k` (R269). -/
theorem pop_eq {s : State} {k : Nat} (hk : k < 32) (hcnt : s.outCnt.val = 32 - k) :
    Effect.pop.apply s =
      answered (0x100#32 ||| (s.outBuf[k]).setWidth 32) { s with outCnt := ⟨31 - k, by omega⟩ } := by
  have hpred : s.outCnt - 1 = ⟨31 - k, by omega⟩ := by
    apply Fin.ext
    rw [Fin.val_sub_one_of_ne_zero (outCnt_ne_zero hk hcnt), hcnt, Nat.sub_right_comm]
  rw [Effect.apply, nextOutput_eq hk hcnt, popResponse_eq, hpred]
  rfl

/-- Settles O21: `POP_BYTE` always acts, and whether a byte is pending decides what it does. -/
theorem popByteResult : Obligations.PopByteResult := fun _ =>
  ⟨fun ho => (does_of_inErrorSet rfl (.popEmpty ho)).exec_eq, fun k hk hcnt => by
    rw [(does_of_inErrorSet rfl (.pop (outCnt_ne_zero hk hcnt))).exec_eq, pop_eq hk hcnt]⟩

/-- Settles O22, phase by phase. -/
theorem endStreamResult : Obligations.EndStreamResult := fun _ =>
  ⟨exec_of_pending rfl,
    fun ho hp hn => (does_of_drained ho (phase_ne_error_of_stream hp) (.close hp hn)).exec_eq,
    fun ho hp hn herr => exec_eq_errored ho (phase_ne_error_of_stream hp) herr (.partialFrame hp hn),
    fun ho hp herr => exec_eq_errored ho (phase_ne_error_of_idle hp) herr (.endStreamIdle hp),
    fun ho hp => exec_of_error ho hp rfl⟩

/-- Settles O24, for each of the two commands. -/
theorem readGridResult : Obligations.ReadGridResult := by
  rintro i g s (⟨rfl, rfl⟩ | ⟨rfl, rfl⟩)
  · exact ⟨exec_of_pending rfl, fun ho hp => (does_of_drained ho hp .readT).exec_eq,
      fun ho hp => exec_of_error ho hp rfl⟩
  · exact ⟨exec_of_pending rfl, fun ho hp => (does_of_drained ho hp .readS).exec_eq,
      fun ho hp => exec_of_error ho hp rfl⟩

/-- A reserved opcode is in neither set of R260. -/
theorem sets_of_isReserved {i : Instr} (hr : i.isReserved = true) : inHeldSet i = false ∧ inErrorSet i = false := by
  cases i with
  | reserved0C0F _ | reserved101F _ | reserved203F _ | reserved407F _ | reserved80FF _ => exact ⟨rfl, rfl⟩
  | _ => cases hr

/-- Settles O27: a reserved opcode is never held, and outside phase `ERROR` never ignored. -/
theorem reservedResult : Obligations.ReservedResult := by
  intro i s hr
  obtain ⟨hfree, hset⟩ := sets_of_isReserved hr
  have hh : held i s = false := held_of_not_inHeldSet hfree
  refine ⟨fun hp herr => ?_, fun hp => (Does.ignored hh (ignored_eq_true.mpr ⟨hp, hset⟩)).exec_eq⟩
  rw [(Does.applied hh (ignored_of_phase hp) (.reserved hr hp)).exec_eq, Effect.apply, raiseError_eq_errored _ herr]

/-! `STATUS` (R271, R32) -/

/-- A field of `STATUS` is found by dropping the fields below it and reading the lowest one left. -/
theorem statusWord_fields (s : State) :
    (statusWord s).extractLsb' 0 2 = phaseCode s.phase ∧
    (statusWord s).extractLsb' 2 1 = modeCode s.mode ∧
    (statusWord s).extractLsb' 3 1 = BitVec.ofBool s.keyv ∧
    (statusWord s).extractLsb' 4 5 = BitVec.ofNat 5 s.inCnt.val ∧
    (statusWord s).extractLsb' 9 6 = BitVec.ofNat 6 s.outCnt.val ∧
    (statusWord s).extractLsb' 15 1 = 0#1 ∧
    (statusWord s).extractLsb' 16 3 = errCode s.err ∧
    (statusWord s).extractLsb' 19 13 = 0#13 := by
  simp only [statusWord, BitVec.extractLsb'_append_eq_of_le, BitVec.extractLsb'_append_eq_right,
    BitVec.extractLsb'_eq_self, Nat.reduceLeDiff, Nat.reduceSub, and_self]

/-- A field of one bit is that bit of the word. -/
theorem getLsbD_of_extractLsb' {v : Word} {i : Nat} {b : Bool} (h : v.extractLsb' i 1 = BitVec.ofBool b) :
    v.getLsbD i = b := by
  simpa using congrArg (fun x => x.getLsbD 0) h

theorem modeCode_eq (m : Mode) : modeCode m = BitVec.ofBool (decide (m = .decrypt)) := by
  cases m <;> rfl

/-- Settles O23: the response is `statusWord`, which is 0 for the state after reset, and whose fields are those of R32. -/
theorem readStatusResult : Obligations.ReadStatusResult := by
  have hexec (s : State) : exec .readStatus s = .next (answered (statusWord s) s) :=
    (does_of_inErrorSet rfl .readStatus).exec_eq
  have hreset : statusWord State.reset = 0x00000000#32 := by decide
  refine ⟨hreset ▸ hexec State.reset, fun s => ⟨statusWord s, hexec s, ?_⟩⟩
  obtain ⟨hphase, hmode, hkeyv, hin, hout, hbit, herr, htop⟩ := statusWord_fields s
  refine ⟨?_, getLsbD_of_extractLsb' (hmode.trans (modeCode_eq _)), getLsbD_of_extractLsb' hkeyv, ?_, ?_,
    getLsbD_of_extractLsb' hbit, ?_, htop⟩
  · rw [hphase]
    cases s.phase <;> rfl
  · rw [hin, BitVec.toNat_ofNat, Nat.mod_eq_of_lt s.inCnt.isLt]
  · rw [hout, BitVec.toNat_ofNat, Nat.mod_eq_of_lt (by omega)]
  · rw [herr]
    cases s.err <;> rfl

end Sys2Proof.Proofs.FramerPipeline

/-! Proofs of the statements about whole sessions (45_framer_pipeline.md rules R279 to R282): the closed form, what a run of
commands does, and from the two what a session puts out. -/

namespace Sys2Proof.Proofs.Sessions

open Sys2Proof.Machine Sys2Proof.Laws Sys2Proof.Claims Sys2Proof.Proofs.Effects Sys2Proof.Proofs.StateElements
  Sys2Proof.Proofs.CommandWord Sys2Proof.Proofs.CommandIssue Sys2Proof.Proofs.KeySchedule Sys2Proof.Proofs.BlockCipher
  Sys2Proof.Proofs.FramerPipeline

/-! The closed form of sessions (R280, R282) -/

theorem decFrames_encFrames (k : Word) (i : Nat) (bs : List Frame) : decFrames k i (encFrames k i bs) = bs := by
  induction bs generalizing i with
  | nil => rfl
  | cons b bs ih => rw [encFrames, decFrames, decFrame_encFrame, ih]

theorem encFrames_append (k : Word) (i : Nat) (xs ys : List Frame) :
    encFrames k i (xs ++ ys) = encFrames k i xs ++ encFrames k (i + xs.length) ys := by
  induction xs generalizing i with
  | nil => rfl
  | cons x xs ih =>
    rw [List.cons_append, encFrames, encFrames, ih, List.cons_append, List.length_cons, Nat.add_right_comm, Nat.add_assoc]

/-- Settles O58, by induction on the first session's frames. -/
theorem sessionRoundTrip : Obligations.SessionRoundTrip := fun k i xs ys =>
  ⟨decFrames_encFrames k i xs, encFrames_append k i xs ys⟩

/-! Runs of commands (R377) -/

/-- A run of `m + n` steps is a run of `m` followed by one of `n`. -/
theorem run_add {M : Host.Core} {m n : Nat} {s t : M.State} (h : M.run m s = .next t) : M.run (m + n) s = M.run n t := by
  induction m generalizing s with
  | zero =>
    obtain rfl : s = t := Host.Outcome.next.inj h
    rw [Nat.zero_add]
  | succ m ih =>
    rw [Nat.add_right_comm]
    rw [Host.Core.run] at h ⊢
    cases hs : M.step s with
    | next u =>
      rw [hs] at h
      exact ih h
    | fault r | refused r =>
      rw [hs] at h
      cases h

theorem run_one {M : Host.Core} {s t : M.State} (h : M.step s = .next t) : M.run 1 s = .next t := by
  rw [Host.Core.run, h]
  rfl

/-- From every state with `P`, the commands `is` issued by the host are accepted one step each, with the responses `vs`, and
leave a state with `Q`. -/
def Runs (P : State → Prop) (is : List Instr) (vs : List Word) (Q : State → Prop) : Prop :=
  ∀ (s : State) (rest : List HostAction), P s → s.hostQueue = issue is ++ rest →
    ∃ t, Host.Core.run core is.length s = .next t ∧ t.hostQueue = rest ∧ t.responses = s.responses ++ vs ∧ Q t

theorem issue_append (is js : List Instr) : issue (is ++ js) = issue is ++ issue js := List.map_append

theorem Runs.of_imp {P Q : State → Prop} (h : ∀ s, P s → Q s) : Runs P [] [] Q := fun s _ hs hq =>
  ⟨s, rfl, hq, (List.append_nil _).symm, h s hs⟩

theorem Runs.append {P Q R : State → Prop} {is js : List Instr} {vs ws : List Word} (h : Runs P is vs Q)
    (h' : Runs Q js ws R) : Runs P (is ++ js) (vs ++ ws) R := by
  intro s rest hs hq
  rw [issue_append, List.append_assoc] at hq
  obtain ⟨t, hrun, hqueue, hresp, ht⟩ := h s _ hs hq
  obtain ⟨u, hrun', hqueue', hresp', hu⟩ := h' t rest ht hqueue
  refine ⟨u, ?_, hqueue', by rw [hresp', hresp, List.append_assoc], hu⟩
  rw [List.length_append, run_add hrun, hrun']

/-- One command, by its effect. -/
theorem Runs.single {P Q : State → Prop} {i : Instr} {v : Word} {e : Effect} (hacc : e ≠ .stay)
    (h : ∀ s, P s → invariantsHold s = true ∧ Does i s e ∧ (e.apply s).responses = s.responses ++ [v] ∧ Q (e.apply s)) :
    Runs P [i] [v] Q := by
  intro s rest hs hq
  obtain ⟨hinv, he, hresp, hnext⟩ := h s hs
  obtain ⟨hqueue, -⟩ := apply_accepts hacc s
  have hstep : step s = .next (e.apply s) := by
    rw [step_of_command hinv (nextAction_of_hostQueue_cons hq), decode_encode, he.exec_eq]
  exact ⟨e.apply s, run_one (M := core) hstep, by rw [hqueue, hq]; rfl, hresp, hnext⟩

/-! A session (R279): what holds between its commands, and what each command makes of it -/

/-- A session of key `k` and mode `m` is open, and `n` blocks of it are processed. -/
structure InSession (k : Word) (m : Mode) (n : Nat) (s : State) : Prop where
  keyv : s.keyv = true
  phase : s.phase = .stream
  err : s.err = .noError
  mode : s.mode = m
  schedule : onSchedule s k n

/-- Between two blocks. -/
structure BetweenBlocks (k : Word) (m : Mode) (n : Nat) (s : State) : Prop extends InSession k m n s where
  outCnt : s.outCnt = 0
  inCnt : s.inCnt = 0

/-- The first `j` bytes of the frame `b` are pushed. -/
structure Filling (k : Word) (m : Mode) (n : Nat) (b : Frame) (j : Nat) (s : State) : Prop extends InSession k m n s where
  outCnt : s.outCnt = 0
  inCnt : s.inCnt.val = j
  inBuf : AgreeBelow j s.inBuf b

/-- The first `j` bytes of the output frame `out` are popped. -/
structure Draining (k : Word) (m : Mode) (n : Nat) (out : Frame) (j : Nat) (s : State) : Prop
    extends InSession k m n s where
  outCnt : s.outCnt.val = 32 - j
  inCnt : s.inCnt = 0
  outBuf : s.outBuf = out

section

variable {k : Word} {m : Mode} {n : Nat} {b out : Frame} {j : Nat} {s : State}

theorem InSession.phase_ne_error (h : InSession k m n s) : s.phase ≠ .error := phase_ne_error_of_stream h.phase

theorem InSession.invariantsHold (h : InSession k m n s) : invariantsHold s = true :=
  invariantsHold_of_noError h.err h.phase_ne_error (fun _ => h.keyv) fun hidle => nomatch h.phase.symm.trans hidle

theorem BetweenBlocks.filling (h : BetweenBlocks k m n s) (b : Frame) : Filling k m n b 0 s :=
  ⟨h.toInSession, h.outCnt, congrArg Fin.val h.inCnt, fun i _ hi => absurd hi (Nat.not_lt_zero i)⟩

theorem Draining.betweenBlocks (h : Draining k m n out 32 s) : BetweenBlocks k m n s :=
  ⟨h.toInSession, Fin.ext h.outCnt, h.inCnt⟩

/-- A push short of a full frame (R268). -/
theorem runs_store (k : Word) (m : Mode) (n : Nat) (b : Frame) (hj : j < 31) :
    Runs (Filling k m n b j) [.pushByte b[j]] [0#32] (Filling k m n b (j + 1)) := by
  refine Runs.single (e := .store b[j]) nofun fun s hs => ?_
  obtain ⟨hopen, hout, hin, hbuf⟩ := hs
  have hlt : s.inCnt.val < 31 := hin ▸ hj
  have hset : b.set j b[j] = b := Vector.set_getElem_self _
  refine ⟨hopen.invariantsHold, does_of_drained hout hopen.phase_ne_error (.store hopen.phase (inCnt_ne_last hlt)), rfl, ?_⟩
  rw [store_eq hlt]
  refine ⟨⟨hopen.keyv, hopen.phase, hopen.err, hopen.mode, hopen.schedule⟩, hout, congrArg (· + 1) hin, ?_⟩
  have hstored := hbuf.set (by omega : j < 32) b[j]
  rw [hset] at hstored
  simpa only [answered, hin] using hstored

/-- The first `j + 1` bytes of a frame are the first `j` and byte `j`. -/
theorem take_succ_toList (b : Frame) (hj : j < 32) : b.toList.take (j + 1) = b.toList.take j ++ [b[j]] := by
  rw [List.take_succ_eq_append_getElem (b.length_toList.symm ▸ hj), Vector.getElem_toList]

/-- All bytes of a frame. -/
theorem take_toList (b : Frame) : b.toList.take 32 = b.toList :=
  List.take_of_length_le b.length_toList.le

/-- The bytes of a frame but its last, pushed in order. -/
theorem runs_pushes (k : Word) (m : Mode) (n : Nat) (b : Frame) (hj : j ≤ 31) :
    Runs (BetweenBlocks k m n) ((b.toList.take j).map .pushByte) (List.replicate j 0#32) (Filling k m n b j) := by
  induction j with
  | zero => exact Runs.of_imp fun s hs => hs.filling b
  | succ j ih =>
    rw [take_succ_toList b (by omega), List.map_append, List.replicate_succ']
    exact (ih (by omega)).append (runs_store k m n b (by omega))

/-- The subkeys of block `n` are the grids that its block step advances to (R167, R275). -/
theorem advance_of_onSchedule (h : onSchedule s k n) : advance s.gt = subkeyT k n ∧ advance s.gs = subkeyS k n := by
  obtain ⟨hgt, hgs, -⟩ := h
  rw [hgt, hgs, ← advances_eq, ← advances_eq]
  exact ⟨rfl, rfl⟩

/-- The push that fills the frame puts out its block (R275). -/
theorem runs_block (k : Word) (m : Mode) (n : Nat) (b : Frame) :
    Runs (Filling k m n b 31) [.pushByte b[31]] [0#32]
      (Draining k m (n + 1) (blockOutput m b (subkeyT k n) (subkeyS k n)) 0) := by
  refine Runs.single (e := .block b[31]) nofun fun s hs => ?_
  obtain ⟨hopen, hout, hin, hbuf⟩ := hs
  have hfull : s.inCnt = 31 := Fin.ext hin
  have hframe : s.inBuf.set 31 b[31] = b := by
    have hstored := (hbuf.set (by omega) b[31]).eq
    rwa [Vector.set_getElem_self] at hstored
  obtain ⟨hT, hS⟩ := advance_of_onSchedule hopen.schedule
  refine ⟨hopen.invariantsHold, does_of_drained hout hopen.phase_ne_error (.block hopen.phase hfull), rfl, ?_⟩
  refine ⟨⟨hopen.keyv, hopen.phase, hopen.err, hopen.mode, onSchedule_block hopen.schedule _⟩, rfl, rfl, ?_⟩
  rw [block_outBuf, block_inBuf hfull, hframe, hopen.mode, hT, hS]

/-- A pop of byte `j` (R269). -/
theorem runs_pop (k : Word) (m : Mode) (n : Nat) (out : Frame) (hj : j < 32) :
    Runs (Draining k m n out j) [.popByte] [0x100#32 ||| (out[j]).setWidth 32] (Draining k m n out (j + 1)) := by
  refine Runs.single (e := .pop) nofun fun s hs => ?_
  obtain ⟨hopen, hcnt, hin, rfl⟩ := hs
  refine ⟨hopen.invariantsHold, does_of_inErrorSet rfl (.pop (outCnt_ne_zero hj hcnt)), ?_, ?_⟩
  · rw [pop_eq hj hcnt, answered]
  · rw [pop_eq hj hcnt]
    exact ⟨⟨hopen.keyv, hopen.phase, hopen.err, hopen.mode, hopen.schedule⟩, (Nat.add_sub_add_right 31 1 j).symm, hin, rfl⟩

theorem runs_pops (k : Word) (m : Mode) (n : Nat) (out : Frame) (hj : j ≤ 32) :
    Runs (Draining k m n out 0) (List.replicate j .popByte)
      ((out.toList.take j).map fun b => 0x100#32 ||| b.setWidth 32) (Draining k m n out j) := by
  induction j with
  | zero => exact Runs.of_imp fun _ => id
  | succ j ih =>
    rw [take_succ_toList out (by omega), List.map_append, List.replicate_succ']
    exact (ih (by omega)).append (runs_pop k m n out (by omega))

end

/-! Whole sessions (R279) -/

/-- The output frames of a session in either mode, from block index `i` on (R279). -/
def sessionFrames : Mode → Word → Nat → List Frame → List Frame
  | .encrypt => encFrames
  | .decrypt => decFrames

theorem sessionFrames_nil (m : Mode) (k : Word) (n : Nat) : sessionFrames m k n [] = [] := by
  cases m <;> rfl

theorem sessionFrames_cons (m : Mode) (k : Word) (n : Nat) (b : Frame) (bs : List Frame) :
    sessionFrames m k n (b :: bs) = blockOutput m b (subkeyT k n) (subkeyS k n) :: sessionFrames m k (n + 1) bs := by
  cases m <;> rfl

/-- One block: its 32 bytes in, its 32 bytes out. -/
theorem runs_blockCommands (k : Word) (m : Mode) (n : Nat) (b : Frame) :
    Runs (BetweenBlocks k m n) (blockCommands b) (blockResponses (blockOutput m b (subkeyT k n) (subkeyS k n)))
      (BetweenBlocks k m (n + 1)) := by
  have hpushes : b.toList.map Instr.pushByte = (b.toList.take 31).map .pushByte ++ [.pushByte b[31]] := by
    rw [← List.map_singleton, ← List.map_append, ← take_succ_toList b (by omega), take_toList]
  have hin := (runs_pushes k m n b le_rfl).append (runs_block k m n b)
  rw [← hpushes, ← List.replicate_succ'] at hin
  have hout := runs_pops k m (n + 1) (blockOutput m b (subkeyT k n) (subkeyS k n)) le_rfl
  rw [take_toList] at hout
  have hend := (hin.append hout).append (Runs.of_imp fun _ => Draining.betweenBlocks)
  rwa [List.append_nil, List.append_nil] at hend

theorem runs_blocks (k : Word) (m : Mode) (n : Nat) (bs : List Frame) :
    Runs (BetweenBlocks k m n) (bs.flatMap blockCommands) ((sessionFrames m k n bs).flatMap blockResponses)
      (BetweenBlocks k m (n + bs.length)) := by
  induction bs generalizing n with
  | nil =>
    rw [sessionFrames_nil]
    exact Runs.of_imp fun _ => id
  | cons b bs ih =>
    rw [sessionFrames_cons, List.flatMap_cons, List.flatMap_cons, List.length_cons, Nat.add_comm bs.length,
      ← Nat.add_assoc]
    exact (runs_blockCommands k m n b).append (ih (n + 1))

/-- An engine outside a session, with nothing pending. -/
structure IdleDrained (s : State) : Prop where
  inv : invariantsHold s = true
  phase : s.phase = .idle
  outCnt : s.outCnt = 0

/-- The same, with the key loaded. -/
structure IdleKeyed (k : Word) (s : State) : Prop extends IdleDrained s where
  key : s.key = k
  keyv : s.keyv = true

theorem runs_loadKey (k : Word) : Runs IdleDrained [.loadKey k] [0#32] (IdleKeyed k) := by
  refine Runs.single (e := .loadKey k) nofun fun s hs => ?_
  obtain ⟨hinv, hp, ho⟩ := hs
  have he : Does (.loadKey k) s (.loadKey k) := does_of_drained ho (phase_ne_error_of_idle hp) (.loadKey hp)
  exact ⟨hinv, he, rfl, ⟨invariantsHold_apply he hinv, hp, ho⟩, rfl, rfl⟩

theorem runs_openingCommand (k : Word) (m : Mode) :
    Runs (IdleKeyed k) [openingCommand m] [0#32] (BetweenBlocks k m 0) := by
  refine Runs.single (e := .start m) nofun fun s hs => ?_
  obtain ⟨⟨hinv, hp, ho⟩, rfl, hk⟩ := hs
  have hne : s.phase ≠ .error := phase_ne_error_of_idle hp
  have herr : s.err = .noError := err_eq_noError hinv hne
  exact ⟨hinv, does_of_drained ho hne (appliesIn_openingCommand m hp hk), rfl,
    ⟨hk, rfl, herr, rfl, onSchedule_openSession m s⟩, ho, rfl⟩

theorem runs_endStream (k : Word) (m : Mode) (n : Nat) :
    Runs (BetweenBlocks k m n) [.endStream] [0#32] fun t => t.phase = .idle ∧ t.blkcnt = BitVec.ofNat 32 n := by
  refine Runs.single (e := .close) nofun fun s hs => ?_
  obtain ⟨hopen, ho, hn⟩ := hs
  obtain ⟨-, -, hcount⟩ := hopen.schedule
  exact ⟨hopen.invariantsHold, does_of_drained ho hopen.phase_ne_error (.close hopen.phase hn), rfl, rfl, hcount⟩

/-- A whole session, in either mode. -/
theorem runs_sessionCommands (k : Word) (m : Mode) (bs : List Frame) :
    Runs IdleDrained (sessionCommands (openingCommand m) k bs) (sessionResponses (sessionFrames m k 0 bs))
      fun t => t.phase = .idle ∧ t.blkcnt = BitVec.ofNat 32 bs.length := by
  have hblocks := runs_blocks k m 0 bs
  rw [Nat.zero_add] at hblocks
  have h := (((runs_loadKey k).append (runs_openingCommand k m)).append hblocks).append (runs_endStream k m bs.length)
  rw [List.append_assoc _ (bs.flatMap blockCommands)] at h
  exact h

theorem length_blockCommands (b : Frame) : (blockCommands b).length = 64 := by
  rw [blockCommands, List.length_append, List.length_map, List.length_replicate, b.length_toList]

theorem length_sessionCommands (start : Instr) (k : Word) (bs : List Frame) :
    (sessionCommands start k bs).length = 3 + 64 * bs.length := by
  have hblocks : (bs.flatMap blockCommands).length = 64 * bs.length := by
    simp [List.length_flatMap, length_blockCommands, Nat.mul_comm]
  simp only [sessionCommands, List.length_cons, List.length_append, List.length_nil, hblocks]
  omega

/-- Settles O57: the key load and the opening, then the blocks, then the end, each as a run of commands, for either mode. -/
theorem sessionOutput : Obligations.SessionOutput := by
  intro s k bs rest hinv hp ho
  have hrun (m : Mode) (hq : s.hostQueue = issue (sessionCommands (openingCommand m) k bs) ++ rest) :
      ∃ t, Host.Core.run core (3 + 64 * bs.length) s = .next t ∧ t.hostQueue = rest ∧ t.phase = .idle ∧
        t.responses = s.responses ++ sessionResponses (sessionFrames m k 0 bs) ∧
        t.blkcnt = BitVec.ofNat 32 bs.length := by
    obtain ⟨t, ht, hqueue, hresp, hidle, hcount⟩ := runs_sessionCommands k m bs s rest ⟨hinv, hp, ho⟩ hq
    rw [length_sessionCommands] at ht
    exact ⟨t, ht, hqueue, hidle, hresp, hcount⟩
  exact ⟨hrun .encrypt, hrun .decrypt⟩

end Sys2Proof.Proofs.Sessions

/-! Proofs of the statements about errors (60_exceptions.md): which command raises which error, what an error leaves, and what
phase `ERROR` and `CLEAR` do, all from the effect a command has. -/

namespace Sys2Proof.Proofs.Exceptions

open Sys2Proof.Machine Sys2Proof.Laws Sys2Proof.Claims Sys2Proof.Proofs.Effects Sys2Proof.Proofs.StateElements
  Sys2Proof.Proofs.FramerPipeline

section

variable {i : Instr} {s t : State} {e : Effect} {code : ErrCode}

/-! The causes of the errors (R321, R322, R324) -/

theorem appliesIn_keyMissing_iff :
    AppliesIn i s (.raise .keyMissing) ↔ s.phase = .idle ∧ s.keyv = false ∧ (i = .startEnc ∨ i = .startDec) := by
  constructor
  · intro h
    cases h with
    | startEncNoKey hp hk => exact ⟨hp, hk, .inl rfl⟩
    | startDecNoKey hp hk => exact ⟨hp, hk, .inr rfl⟩
  · rintro ⟨hp, hk, rfl | rfl⟩
    · exact .startEncNoKey hp hk
    · exact .startDecNoKey hp hk

theorem appliesIn_inputLengthInvalid_iff :
    AppliesIn i s (.raise .inputLengthInvalid) ↔ s.phase = .stream ∧ i = .endStream ∧ s.inCnt ≠ 0 := by
  constructor
  · intro h
    cases h with
    | partialFrame hp hn => exact ⟨hp, rfl, hn⟩
  · rintro ⟨hp, rfl, hn⟩
    exact .partialFrame hp hn

theorem appliesIn_commandIllegal_iff (hp : s.phase ≠ .error) :
    AppliesIn i s (.raise .commandIllegal) ↔
      (s.phase = .stream ∧ ((∃ k, i = .loadKey k) ∨ i = .startEnc ∨ i = .startDec)) ∨
      (s.phase = .idle ∧ ((∃ b, i = .pushByte b) ∨ i = .endStream)) ∨ i.isReserved = true := by
  constructor
  · intro h
    cases h with
    | loadKeyInSession hs => exact .inl ⟨hs, .inl ⟨_, rfl⟩⟩
    | startEncInSession hs => exact .inl ⟨hs, .inr (.inl rfl)⟩
    | startDecInSession hs => exact .inl ⟨hs, .inr (.inr rfl)⟩
    | pushByteIdle hi => exact .inr (.inl ⟨hi, .inl ⟨_, rfl⟩⟩)
    | endStreamIdle hi => exact .inr (.inl ⟨hi, .inr rfl⟩)
    | reserved hr => exact .inr (.inr hr)
  · rintro (⟨hs, ⟨k, rfl⟩ | rfl | rfl⟩ | ⟨hi, ⟨b, rfl⟩ | rfl⟩ | hr)
    · exact .loadKeyInSession hs
    · exact .startEncInSession hs
    · exact .startDecInSession hs
    · exact .pushByteIdle hi
    · exact .endStreamIdle hi
    · exact .reserved hr hp

/-- A command raises one of the engine's three errors: never a host-side code (R330) or a reserved one. -/
theorem code_of_appliesIn_raise (h : AppliesIn i s (.raise code)) :
    code = .inputLengthInvalid ∨ code = .keyMissing ∨ code = .commandIllegal := by
  cases h with
  | partialFrame => exact .inl rfl
  | startEncNoKey | startDecNoKey => exact .inr (.inl rfl)
  | reserved | loadKeyInSession | startEncInSession | startDecInSession | pushByteIdle | endStreamIdle =>
    exact .inr (.inr rfl)

/-! Error entry (R323) -/

/-- Outside phase `ERROR`, with no error latched, an effect raises an error or leaves the engine without one. -/
theorem eq_raise_or_apply_noError (hp : s.phase ≠ .error) (herr : s.err = .noError) (e : Effect) :
    (∃ code, e = .raise code) ∨ ((e.apply s).phase ≠ .error ∧ (e.apply s).err = .noError) := by
  cases e with
  | raise code => exact .inl ⟨code, rfl⟩
  | start | close => exact .inr ⟨nofun, herr⟩
  | clear => exact .inr ⟨nofun, rfl⟩
  | _ => exact .inr ⟨hp, herr⟩

/-- A command that raises an error passed the hold and the ignore test. -/
theorem appliesIn_of_does_raise (h : Does i s (.raise code)) : AppliesIn i s (.raise code) := by
  obtain _ | _ | ⟨-, -, ha⟩ := h
  exact ha

/-- Outside phase `ERROR`, with no error latched, a command enters `ERROR` precisely or leaves the engine without an error. -/
theorem exec_errored_or_noError (hp : s.phase ≠ .error) (herr : s.err = .noError) (h : exec i s = .next t) :
    (∃ code, AppliesIn i s (.raise code) ∧ t = errored code s) ∨ (t.phase ≠ .error ∧ t.err = .noError) := by
  obtain ⟨e, he, rfl⟩ := exec_effect h
  obtain ⟨code, rfl⟩ | hno := eq_raise_or_apply_noError hp herr e
  · exact .inl ⟨code, appliesIn_of_does_raise he, raiseError_eq_errored code herr⟩
  · exact .inr hno

/-- The error a command that is not held enters is the one its rule raises. -/
theorem exec_eq_errored_iff (hp : s.phase ≠ .error) (herr : s.err = .noError) (hh : held i s = false) :
    exec i s = .next (errored code s) ↔ AppliesIn i s (.raise code) := by
  constructor
  · intro h
    obtain ⟨c, ha, heq⟩ | ⟨hne, -⟩ := exec_errored_or_noError hp herr h
    · obtain rfl : code = c := congrArg State.err heq
      exact ha
    · exact absurd rfl hne
  · intro ha
    rw [(Does.applied hh (ignored_of_phase hp) ha).exec_eq, Effect.apply, raiseError_eq_errored code herr]

/-- A command other than `CLEAR` finds phase `ERROR` and leaves it with the first error latched (R326). -/
theorem apply_of_error (h : Does i s e) (hp : s.phase = .error) (hclear : i ≠ .clear) :
    (e.apply s).phase = .error ∧ (e.apply s).err = s.err := by
  obtain _ | _ | ⟨-, -, ha⟩ := h
  · exact ⟨hp, rfl⟩
  · exact ⟨hp, rfl⟩
  cases ha with
  | clear => exact absurd rfl hclear
  | reserved _ hne => exact absurd hp hne
  | loadKey hq | loadKeyInSession hq | startEnc hq | startDec hq | startEncNoKey hq | startEncInSession hq
  | startDecNoKey hq | startDecInSession hq | store hq | block hq | pushByteIdle hq | close hq | partialFrame hq
  | endStreamIdle hq => exact nomatch hp.symm.trans hq
  | nop | popEmpty | pop | readStatus | readT | readS | readBlkcnt => exact ⟨hp, rfl⟩

end

/-! The statements -/

/-- Settles O28: a command that ends in `ERROR` raised an error, and no rule raises code 0. -/
theorem errorEntryChangesNothingElse : Obligations.ErrorEntryChangesNothingElse := by
  intro i s t hp herr h herror
  obtain ⟨code, ha, rfl⟩ | ⟨hne, -⟩ := exec_errored_or_noError hp herr h
  · refine ⟨rfl, fun hno : code = .noError => ?_⟩
    have hcode := code_of_appliesIn_raise ha
    rw [hno] at hcode
    exact absurd hcode (by decide)
  · exact absurd herror hne

/-- Settles O29: the error entered is the one the rule raises, and of each error the rules' tests are its causes. -/
theorem errorCauses : Obligations.ErrorCauses := by
  intro i s hp herr hh
  refine ⟨(exec_eq_errored_iff hp herr hh).trans appliesIn_keyMissing_iff,
    (exec_eq_errored_iff hp herr hh).trans appliesIn_inputLengthInvalid_iff,
    (exec_eq_errored_iff hp herr hh).trans (appliesIn_commandIllegal_iff hp), fun t h => errCode_of_latched ?_⟩
  obtain ⟨code, ha, rfl⟩ | ⟨-, hno⟩ := exec_errored_or_noError hp herr h
  · exact .inr (code_of_appliesIn_raise ha)
  · exact .inl hno

/-- Settles O30: in phase `ERROR` no command raises an error, and those outside `ERROR_SET` are held or ignored. -/
theorem errorStaysLatched : Obligations.ErrorStaysLatched := by
  intro i s t hp h
  obtain ⟨hheld, hignored, -⟩ := commandHeldIgnoredOrCompleted i s
  refine ⟨fun hclear => ?_, fun hset => ?_⟩
  · obtain ⟨e, he, rfl⟩ := exec_effect h
    exact apply_of_error he hp hclear
  · by_cases hh : HeldSet i ∧ s.outCnt ≠ 0
    · exact .inl (and_assoc.mp ⟨hh, Host.Outcome.next.inj (h.symm.trans (hheld hh))⟩)
    · exact .inr ⟨hh, Host.Outcome.next.inj (h.symm.trans (hignored hh hp hset))⟩

/-- Settles O31: `CLEAR` always acts and keeps `KEY` and `KEYV`, and `START_ENC` then passes both its tests. -/
theorem clearReturnsFromError : Obligations.ClearReturnsFromError := by
  intro s _
  refine ⟨_, (does_of_inErrorSet rfl .clear).exec_eq, rfl, rfl, rfl, rfl, fun hk => ?_⟩
  have hstart : Does .startEnc (Effect.clear.apply s) (.start .encrypt) := does_of_drained rfl nofun (.startEnc rfl hk)
  exact ⟨_, hstart.exec_eq, rfl, rfl⟩

end Sys2Proof.Proofs.Exceptions

/-! Proofs of the statements about reset and about how a run ends (70_reset_and_hazards.md rules R360 and R377). -/

namespace Sys2Proof.Proofs.ResetAndHazards

open Sys2Proof.Machine Sys2Proof.Laws Sys2Proof.Proofs.Scope Sys2Proof.Proofs.Effects Sys2Proof.Proofs.StateElements
  Sys2Proof.Proofs.CommandIssue Sys2Proof.Proofs.FramerPipeline Sys2Proof.Proofs.Sessions

/-! Reset (R360) -/

theorem step_of_reset {s : State} {rest : List HostAction} (hq : s.hostQueue = .reset :: rest) :
    step s = .next { applyReset s with hostQueue := rest } := by
  simp only [step, nextAction_of_hostQueue_cons hq, hq, List.tail_cons]

/-- The six elements `STATUS` shows (R32) at their reset values make it 0. -/
theorem statusWord_of_reset_values {s : State} (hphase : s.phase = .idle) (hmode : s.mode = .encrypt)
    (hkeyv : s.keyv = false) (hin : s.inCnt = 0) (hout : s.outCnt = 0) (herr : s.err = .noError) :
    statusWord s = 0#32 := by
  rw [statusWord, hphase, hmode, hkeyv, hin, hout, herr]
  decide

/-- Settles O7: `applyReset` is `clearSession` with the key elements cleared, and `CLEAR` always acts. -/
theorem stepAppliesReset : Obligations.StepAppliesReset := by
  intro s rest hq
  refine ⟨_, step_of_reset hq, statusWord_of_reset_values rfl rfl rfl rfl rfl rfl, rfl, fun c hc => ?_⟩
  have hclear : exec .clear s = .next (respond 0#32 (clearSession s)) := (does_of_inErrorSet rfl .clear).exec_eq
  obtain rfl : c = respond 0#32 (clearSession s) := Host.Outcome.next.inj (hc.symm.trans hclear)
  rfl

/-! The end of a run (R377) -/

theorem finished_iff {s : State} : finished s = true ↔ s.hostQueue = [] := List.isEmpty_iff

theorem stuck_iff {s : State} :
    stuck s = true ↔ ∃ cmd, nextAction s = some (.command cmd) ∧ held (decode cmd) s = true := by
  cases ha : nextAction s with
  | none => simp [stuck, ha]
  | some a => cases a <;> simp [stuck, ha]

/-- The run has ended: every action is accepted, or the next command is held. -/
def Ended (s : State) : Prop := finished s = true ∨ stuck s = true

section

variable {s : State}

theorem not_ended_iff : ¬ Ended s ↔ finished s = false ∧ stuck s = false := by
  rw [Ended, not_or, Bool.not_eq_true, Bool.not_eq_true]

/-- A finished run stutters (R336), and a held command changes nothing (R261). -/
theorem Ended.step_eq_self (h : Ended s) (hinv : invariantsHold s = true) : step s = .next s := by
  obtain hf | hstuck := h
  · exact quietWithoutHostAction s (finished_iff.mp hf)
  · obtain ⟨cmd, ha, hheld⟩ := stuck_iff.mp hstuck
    exact (step_of_command hinv ha).trans (Does.held hheld).exec_eq

/-- A reset is always accepted, and so is a command that is not held. -/
theorem exists_step_accepted (hinv : invariantsHold s = true) (h : ¬ Ended s) :
    ∃ t, step s = .next t ∧ t.hostQueue = s.hostQueue.tail := by
  obtain ⟨a, rest, hq⟩ : ∃ a rest, s.hostQueue = a :: rest :=
    List.exists_cons_of_ne_nil fun hnil => h (.inl (finished_iff.mpr hnil))
  cases a with
  | reset => exact ⟨_, step_of_reset hq, by rw [hq, List.tail_cons]⟩
  | command cmd =>
    have hfree : held (decode cmd) s = false :=
      Bool.eq_false_iff.mpr fun hheld => h (.inr (stuck_iff.mpr ⟨cmd, nextAction_of_hostQueue_cons hq, hheld⟩))
    obtain ⟨t, _, hexec, hqueue, -⟩ := exists_exec_accepted hfree
    exact ⟨t, (step_of_command hinv (nextAction_of_hostQueue_cons hq)).trans hexec, hqueue⟩

/-- An accepted action leaves the queue, so the step that accepts it changes the state. -/
theorem ended_of_step_eq_self (hinv : invariantsHold s = true) (h : step s = .next s) : Ended s := by
  by_contra hne
  obtain ⟨t, ht, hqueue⟩ := exists_step_accepted hinv hne
  obtain rfl : t = s := Host.Outcome.next.inj (ht.symm.trans h)
  have hlen : t.hostQueue.length = t.hostQueue.length - 1 := (congrArg List.length hqueue).trans List.length_tail
  exact hne (.inl (finished_iff.mpr (List.length_eq_zero_iff.mp (by omega))))

/-- An ended run stays where it is. -/
theorem Ended.run_eq_self (h : Ended s) (hinv : invariantsHold s = true) (n : Nat) : Host.Core.run core n s = .next s := by
  induction n with
  | zero => rfl
  | succ n ih => rw [Nat.add_comm, run_add (run_one (M := core) (h.step_eq_self hinv)), ih]

/-- A run from a state that meets R36 has ended within as many steps as the host has actions queued. -/
theorem exists_run_ended {n : Nat} (hinv : invariantsHold s = true) (hn : s.hostQueue.length ≤ n) :
    ∃ t, Host.Core.run core n s = .next t ∧ Ended t := by
  induction n generalizing s with
  | zero => exact ⟨s, rfl, .inl (finished_iff.mpr (List.length_eq_zero_iff.mp (Nat.le_zero.mp hn)))⟩
  | succ n ih =>
    by_cases h : Ended s
    · exact ⟨s, h.run_eq_self hinv _, h⟩
    · obtain ⟨u, hstep, hqueue⟩ := exists_step_accepted hinv h
      have hlen : u.hostQueue.length ≤ n := by
        rw [hqueue, List.length_tail]
        omega
      obtain ⟨t, hrun, ht⟩ := ih (stepKeepsInvariants s u hinv hstep) hlen
      exact ⟨t, by rw [Nat.add_comm, run_add (run_one (M := core) hstep), hrun], ht⟩

end

/-- Settles O15: the invariants hold in every reachable state, and there a step accepts the next action unless the run has
ended; each step that accepts one shortens the host's queue. -/
theorem runsEndFinishedOrStuck : Obligations.RunsEndFinishedOrStuck := by
  refine ⟨fun s h => ?_, fun program => ?_⟩
  · have hinv : invariantsHold s = true := invariantsHold_of_reachable h
    exact ⟨⟨ended_of_step_eq_self hinv, fun hend => Ended.step_eq_self hend hinv⟩,
      fun hf hs => exists_step_accepted hinv (not_ended_iff.mpr ⟨hf, hs⟩)⟩
  · exact exists_run_ended (invariantsHold_of_reachable (.start program)) le_rfl

end Sys2Proof.Proofs.ResetAndHazards
